-- ==== Sys2Proof/Word.lean ====
section
/-! DEFINITION. The widths of the block: bytes, 32-bit words, the 20-byte frame and page buffers, the 16-byte payload.
spec/00_scope.md R6 and R12. -/

namespace Sys2Proof

/-- A byte: 8 bits, bit 7 the most significant (R12). -/
abbrev Byte := BitVec 8

/-- `W_ARG`, `W_STATUS` and `W_CNT`: 32 bits (R6). -/
abbrev Word := BitVec 32

/-- `PB_BYTES` and `MAX_W`: a 20-byte buffer, byte 0 first on the wire (R6, R12). -/
abbrev Buf := Vector Byte 20

/-- `PAGE_BYTES` and `MAX_R`: the 16 payload bytes of a page, or the 16 bytes of the longest read (R6). -/
abbrev Payload := Vector Byte 16

/-- Twenty zero bytes. -/
def zeroBuf : Buf := Vector.replicate 20 0

/-- Sixteen zero bytes. -/
def zeroPayload : Payload := Vector.replicate 16 0

end Sys2Proof
end

