-- ==== Sys2Proof/Config.lean ====
section
/-! DEFINITION. What an implementation fixes (the open parameters of spec/00_scope.md R6) and the free values. -/

namespace Sys2Proof

/-- `PAGE_OOR` (R6, spec/30_encoding.md R103): what a page number of 2^16 or more does. -/
inductive PageOor where
  | refuse
  | truncate
  deriving DecidableEq, Repr

/-- `TRANSPORT_KIND` (R6): "it has no effect on any rule of this spec". -/
inductive TransportKind where
  | addressedBus
  | clockedBus
  deriving DecidableEq, Repr

/-- The open parameters of R6, each with its default. They are fixed when the block is built (R278) and are no registers
(spec/10_state.md R43 d). DESIGN CHOICE (log 1, safe): the state carries them, so that a claim about every state is a claim about every
value of them. -/
structure Params where
  harden    : Bool := false
  pageOor   : PageOor := .refuse
  pollLimit : Word := 0
  ppOperand : BitVec 24 := 0
  transport : TransportKind := .addressedBus
  deriving DecidableEq, Repr

/-- Free value (log 8): the bytes of `fb` that a frame shorter than 20 bytes leaves. R23 says only that they are not meaningful. -/
opaque Config.fbTail : Nat → Buf

/-- Free value (log 10): `fb` after an RST event, "unspecified" by R44. -/
opaque Config.rstFb : Nat → Buf

/-- Free value (log 10): `pb[4..19]` after an RST event, "unspecified" by R44. -/
opaque Config.rstPayload : Nat → Payload

/-- Free value (log 10): `hi_nib` after an RST event, "unspecified" by R44. -/
opaque Config.rstHiNib : Nat → BitVec 4

/-! Free values (log 22): what an agent of the environment presents when the state leaves it open. The first argument numbers an arbitrary
sequence, the second its items. -/

/-- The status of an answer on TX: "no rule constrains" it (R10). -/
opaque Config.freeStatus : Nat → Nat → Word

/-- The bytes of an answer on TX (R10). -/
opaque Config.freeBytes : Nat → Nat → Payload

/-- A token of HS (R9): a character, or none for EOS. -/
opaque Config.freeToken : Nat → Nat → Option Byte

/-- The op select code of a command on CMD (R9). -/
opaque Config.freeOp : Nat → Nat → BitVec 5

/-- The operand word of a command on CMD (R9). -/
opaque Config.freeArg : Nat → Nat → Word

/-- The buffer of a command on CMD (R9). -/
opaque Config.freeBuf : Nat → Nat → Buf

/-- A sample of RST (R9). -/
opaque Config.freeRst : Nat → Nat → Bool

end Sys2Proof
end

