-- ==== Sys2Proof/Syntax.lean ====
section
/-! DEFINITION. The 23 operations of spec/30_encoding.md R100, as the caller's command gives them. -/

namespace Sys2Proof

/-- The payload of one command on CMD (spec/00_scope.md R9): the op select code, the operand word and the caller's buffer. -/
structure Cmd where
  op  : BitVec 5
  arg : Word
  buf : Buf
  deriving DecidableEq, Repr

/-- One constructor per row of spec/opcode_table.json. Every operation carries `arg`: "arg and buf are ignored by operations that do not use
them" (R100), but `cur_arg` keeps the `arg` of every accepted command (spec/10_state.md R22). Only PROGRAM_PAGE carries `buf`, which no other
operation keeps. -/
inductive Instr where
  /-- READ_ID, R160; op select 0. -/
  | readId (arg : Word)
  /-- READ_USERCODE, R161; op select 1. -/
  | readUsercode (arg : Word)
  /-- READ_STATUS, R162; op select 2. -/
  | readStatus (arg : Word)
  /-- READ_FEATURE_BITS, R163; op select 3. -/
  | readFeatureBits (arg : Word)
  /-- READ_FEATURE_ROW, R164; op select 4. -/
  | readFeatureRow (arg : Word)
  /-- READ_OTP, R165; op select 5. -/
  | readOtp (arg : Word)
  /-- READ_FLASH, R166; op select 6. -/
  | readFlash (arg : Word)
  /-- READ_UFM, R167; op select 7. -/
  | readUfm (arg : Word)
  /-- ERASE_UFM, R180; op select 8. -/
  | eraseUfm (arg : Word)
  /-- ERASE, R181; op select 9. -/
  | erase (flags : Word)
  /-- ENABLE_CFG_TRANSPARENT, R182; op select 10. -/
  | enableCfgTransparent (arg : Word)
  /-- ENABLE_CFG_OFFLINE, R183; op select 11. -/
  | enableCfgOffline (arg : Word)
  /-- IS_BUSY, R210; op select 12. -/
  | isBusy (arg : Word)
  /-- RESET_CFG_ADDR, R184; op select 13. -/
  | resetCfgAddr (arg : Word)
  /-- RESET_UFM_ADDR, R185; op select 14. -/
  | resetUfmAddr (arg : Word)
  /-- SET_CFG_ADDR, R186; op select 15. -/
  | setCfgAddr (page : Word)
  /-- SET_UFM_ADDR, R187; op select 16. -/
  | setUfmAddr (page : Word)
  /-- PROGRAM_PAGE, R188; op select 17. -/
  | programPage (arg : Word) (buf : Buf)
  /-- PROGRAM_DONE, R189; op select 18. -/
  | programDone (arg : Word)
  /-- REFRESH, R190; op select 19. -/
  | refresh (arg : Word)
  /-- WAKEUP, R191; op select 20. -/
  | wakeup (arg : Word)
  /-- WAIT_BUSY, R211; op select 21. -/
  | waitBusy (arg : Word)
  /-- LOAD_HEX, R230; op select 22. -/
  | loadHex (arg : Word)
  deriving DecidableEq, Repr

end Sys2Proof
end

