-- ==== Sys2Proof/Machine/Operands.lean ====
section
/-! DEFINITION. The Command Encoder CE: op select codes, operand assembly, the frame and the read length of every operation, and the two
inputs the block decodes (the busy byte and hex characters). spec/30_encoding.md R90 to R106 and spec/40_sequencer.md R138. -/

namespace Sys2Proof.Machine

/-- The 5-bit op select code (R100). -/
def opsel : Instr → BitVec 5
  | .readId _ => 0
  | .readUsercode _ => 1
  | .readStatus _ => 2
  | .readFeatureBits _ => 3
  | .readFeatureRow _ => 4
  | .readOtp _ => 5
  | .readFlash _ => 6
  | .readUfm _ => 7
  | .eraseUfm _ => 8
  | .erase _ => 9
  | .enableCfgTransparent _ => 10
  | .enableCfgOffline _ => 11
  | .isBusy _ => 12
  | .resetCfgAddr _ => 13
  | .resetUfmAddr _ => 14
  | .setCfgAddr _ => 15
  | .setUfmAddr _ => 16
  | .programPage _ _ => 17
  | .programDone _ => 18
  | .refresh _ => 19
  | .wakeup _ => 20
  | .waitBusy _ => 21
  | .loadHex _ => 22

/-- The operand word of a command. -/
def argOf : Instr → Word
  | .readId arg => arg
  | .readUsercode arg => arg
  | .readStatus arg => arg
  | .readFeatureBits arg => arg
  | .readFeatureRow arg => arg
  | .readOtp arg => arg
  | .readFlash arg => arg
  | .readUfm arg => arg
  | .eraseUfm arg => arg
  | .erase arg => arg
  | .enableCfgTransparent arg => arg
  | .enableCfgOffline arg => arg
  | .isBusy arg => arg
  | .resetCfgAddr arg => arg
  | .resetUfmAddr arg => arg
  | .setCfgAddr arg => arg
  | .setUfmAddr arg => arg
  | .programPage arg _ => arg
  | .programDone arg => arg
  | .refresh arg => arg
  | .wakeup arg => arg
  | .waitBusy arg => arg
  | .loadHex arg => arg

/-- The caller's buffer; the operations that do not use `buf` (R100) carry none and answer zeros. -/
def bufOf : Instr → Buf
  | .readId _ => zeroBuf
  | .readUsercode _ => zeroBuf
  | .readStatus _ => zeroBuf
  | .readFeatureBits _ => zeroBuf
  | .readFeatureRow _ => zeroBuf
  | .readOtp _ => zeroBuf
  | .readFlash _ => zeroBuf
  | .readUfm _ => zeroBuf
  | .eraseUfm _ => zeroBuf
  | .erase _ => zeroBuf
  | .enableCfgTransparent _ => zeroBuf
  | .enableCfgOffline _ => zeroBuf
  | .isBusy _ => zeroBuf
  | .resetCfgAddr _ => zeroBuf
  | .resetUfmAddr _ => zeroBuf
  | .setCfgAddr _ => zeroBuf
  | .setUfmAddr _ => zeroBuf
  | .programPage _ buf => buf
  | .programDone _ => zeroBuf
  | .refresh _ => zeroBuf
  | .wakeup _ => zeroBuf
  | .waitBusy _ => zeroBuf
  | .loadHex _ => zeroBuf

/-- The erase operand byte `ff = (flags >> 16) & 0x0F` (R93). -/
def eraseOperand (flags : Word) : Byte := ((flags >>> 16) &&& 0x0F).setWidth 8

/-- `hh = page[15:8]` (R94). -/
def pageHigh (page : Word) : Byte := page.extractLsb' 8 8

/-- `ll = page[7:0]` (R94). -/
def pageLow (page : Word) : Byte := page.extractLsb' 0 8

/-- The target flag byte of SET_CFG_ADDR (R95). -/
def tgtCfg : Byte := 0x00

/-- The target flag byte of SET_UFM_ADDR (R95). -/
def tgtUfm : Byte := 0x40

/-- The bytes an operation's frame holds, byte 0 first on the wire (R91 to R97). The two composites "have no frame of their own" (R91):
the list is empty, and no step loads it (log 18). -/
def frameBytes : Instr → List Byte
  | .readId _ => [0xE0, 0x00, 0x00, 0x00]
  | .readUsercode _ => [0xC0, 0x00, 0x00, 0x00]
  | .readStatus _ => [0x3C, 0x00, 0x00, 0x00]
  | .readFeatureBits _ => [0xFB, 0x00, 0x00, 0x00]
  | .readFeatureRow _ => [0xE7, 0x00, 0x00, 0x00]
  | .readOtp _ => [0xFA, 0x00, 0x00, 0x00]
  | .readFlash _ => [0x73, 0x00, 0x00, 0x00]
  | .readUfm _ => [0xCA, 0x00, 0x00, 0x00]
  | .eraseUfm _ => [0xCB, 0x00, 0x00, 0x00]
  | .erase flags => [0x0E, eraseOperand flags, 0x00, 0x00]
  | .enableCfgTransparent _ => [0x74, 0x08, 0x00]
  | .enableCfgOffline _ => [0xC6, 0x08, 0x00]
  | .isBusy _ => [0xF0, 0x00, 0x00, 0x00]
  | .resetCfgAddr _ => [0x46, 0x00, 0x00, 0x00]
  | .resetUfmAddr _ => [0x47, 0x00, 0x00, 0x00]
  | .setCfgAddr page => [0xB4, 0x00, 0x00, 0x00, tgtCfg, 0x00, pageHigh page, pageLow page]
  | .setUfmAddr page => [0xB4, 0x00, 0x00, 0x00, tgtUfm, 0x00, pageHigh page, pageLow page]
  | .programPage _ buf => buf.toList
  | .programDone _ => [0x5E, 0x00, 0x00, 0x00]
  | .refresh _ => [0x79, 0x00, 0x00]
  | .wakeup _ => [0xFF, 0xFF, 0xFF, 0xFF]
  | .waitBusy _ => []
  | .loadHex _ => []

/-- The read length of an operation's transaction (R91, R98). -/
def readLen : Instr → BitVec 5
  | .readId _ => 4
  | .readUsercode _ => 4
  | .readStatus _ => 4
  | .readFeatureBits _ => 2
  | .readFeatureRow _ => 8
  | .readOtp _ => 1
  | .readFlash _ => 16
  | .readUfm _ => 16
  | .eraseUfm _ => 0
  | .erase _ => 0
  | .enableCfgTransparent _ => 0
  | .enableCfgOffline _ => 0
  | .isBusy _ => 1
  | .resetCfgAddr _ => 0
  | .resetUfmAddr _ => 0
  | .setCfgAddr _ => 0
  | .setUfmAddr _ => 0
  | .programPage _ _ => 0
  | .programDone _ => 0
  | .refresh _ => 0
  | .wakeup _ => 0
  | .waitBusy _ => 0
  | .loadHex _ => 0

/-- The bytes of PP_OPERAND in frame order, bits 23:16 first (R104; spec/10_state.md R32). -/
def ppBytes (pp : BitVec 24) : List Byte := [pp.extractLsb' 16 8, pp.extractLsb' 8 8, pp.extractLsb' 0 8]

/-- The hard-wired prefix `pb[0..3]` (spec/10_state.md R32). -/
def pagePrefix (pp : BitVec 24) : List Byte := 0x70 :: ppBytes pp

/-- The page buffer `pb[0..19]`: the constant prefix, then the payload (spec/10_state.md R32). -/
def pageBuffer (pp : BitVec 24) (payload : Payload) : Buf :=
  ⟨(pagePrefix pp ++ payload.toList).toArray, by simp [pagePrefix, ppBytes]⟩

/-- `fb` after a frame is written into it: the frame's bytes, then whatever `rest` holds at and beyond `wn` (R23; log 8). -/
def overlay (frame : List Byte) (rest : Buf) : Buf :=
  ⟨((frame ++ rest.toList.drop frame.length).take 20).toArray, by simp; omega⟩

/-- The read bytes `r` of a transaction: the first `rn` of the answer's bytes (spec/00_scope.md R10; log 4). -/
def readBytes (rn : BitVec 5) (bytes : Payload) : List Byte := bytes.toList.take rn.toNat

/-- `r_data`: the bytes read, "bytes at r_len and beyond are 0" (spec/10_state.md R39). -/
def dataField (rn : BitVec 5) (bytes : Payload) : Payload :=
  ⟨((readBytes rn bytes ++ List.replicate 16 0).take 16).toArray, by simp⟩

/-- `busy = r[0][7]`; bits 6:0 are ignored (R105). -/
def busyBit (b : Byte) : Bool := b.getLsbD 7

/-- `value(c)` of a hex digit, `none` for a record separator (R106). -/
def hexValue (c : Byte) : Option (BitVec 4) :=
  if 0x30 ≤ c ∧ c ≤ 0x39 then some ((c - 0x30).setWidth 4)
  else if 0x41 ≤ c ∧ c ≤ 0x46 then some ((c - 0x41 + 10).setWidth 4)
  else if 0x61 ≤ c ∧ c ≤ 0x66 then some ((c - 0x61 + 10).setWidth 4)
  else none

/-- `(hi_nib << 4) | value(c)` (R138 d; spec/20_memory.md R66). -/
def hexByte (hi lo : BitVec 4) : Byte := (hi.setWidth 8 <<< 4) ||| lo.setWidth 8

/-- `sat_w(x + 1)` (R138 f, g; spec/00_scope.md R12). -/
def satInc {w : Nat} (x : BitVec w) : BitVec w := if x = BitVec.allOnes w then x else x + 1

end Sys2Proof.Machine
end

