-- ==== Sys2Proof/WellFormed.lean ====
section
/-! DEFINITION. When an operation and its operands are well formed. The block runs ill-formed ones too (a page that does not fit is refused
or truncated, a foreign buffer is sent as it is): this predicate is for statements about encodings. -/

namespace Sys2Proof

/-- A page number fits the two page bytes of the frame (spec/30_encoding.md R94, R103). -/
def Instr.pageFits : Instr → Bool
  | .readId _ => true
  | .readUsercode _ => true
  | .readStatus _ => true
  | .readFeatureBits _ => true
  | .readFeatureRow _ => true
  | .readOtp _ => true
  | .readFlash _ => true
  | .readUfm _ => true
  | .eraseUfm _ => true
  | .erase _ => true
  | .enableCfgTransparent _ => true
  | .enableCfgOffline _ => true
  | .isBusy _ => true
  | .resetCfgAddr _ => true
  | .resetUfmAddr _ => true
  | .setCfgAddr page => page.toNat < 0x10000
  | .setUfmAddr page => page.toNat < 0x10000
  | .programPage _ _ => true
  | .programDone _ => true
  | .refresh _ => true
  | .wakeup _ => true
  | .waitBusy _ => true
  | .loadHex _ => true

/-- "A well-formed caller buffer has buf[0] = 0x70 and buf[1..3] = PP_OPERAND bytes" (spec/30_encoding.md R96). -/
def Instr.bufPrefixOk (pp : BitVec 24) : Instr → Bool
  | .readId _ => true
  | .readUsercode _ => true
  | .readStatus _ => true
  | .readFeatureBits _ => true
  | .readFeatureRow _ => true
  | .readOtp _ => true
  | .readFlash _ => true
  | .readUfm _ => true
  | .eraseUfm _ => true
  | .erase _ => true
  | .enableCfgTransparent _ => true
  | .enableCfgOffline _ => true
  | .isBusy _ => true
  | .resetCfgAddr _ => true
  | .resetUfmAddr _ => true
  | .setCfgAddr _ => true
  | .setUfmAddr _ => true
  | .programPage _ buf => buf.toList.take 4 == Machine.pagePrefix pp
  | .programDone _ => true
  | .refresh _ => true
  | .wakeup _ => true
  | .waitBusy _ => true
  | .loadHex _ => true

/-- The operands are ones the spec calls well formed. -/
def Instr.wellFormed (pp : BitVec 24) (i : Instr) : Bool := i.pageFits && i.bufPrefixOk pp

/-- The part of `arg` that the operation's frame carries: bits 19:16 for ERASE (R93, R102), bits 15:0 for the two set-address operations
(R94), nothing for the rest (R100). -/
def Instr.carriedArg : Instr → Word
  | .readId _ => 0
  | .readUsercode _ => 0
  | .readStatus _ => 0
  | .readFeatureBits _ => 0
  | .readFeatureRow _ => 0
  | .readOtp _ => 0
  | .readFlash _ => 0
  | .readUfm _ => 0
  | .eraseUfm _ => 0
  | .erase flags => flags &&& 0x000F0000
  | .enableCfgTransparent _ => 0
  | .enableCfgOffline _ => 0
  | .isBusy _ => 0
  | .resetCfgAddr _ => 0
  | .resetUfmAddr _ => 0
  | .setCfgAddr page => page &&& 0x0000FFFF
  | .setUfmAddr page => page &&& 0x0000FFFF
  | .programPage _ _ => 0
  | .programDone _ => 0
  | .refresh _ => 0
  | .wakeup _ => 0
  | .waitBusy _ => 0
  | .loadHex _ => 0

/-- `arg` holds only bits that the frame carries, so that the frame says all of the command. -/
def Instr.argCarried (i : Instr) : Bool := Machine.argOf i == i.carriedArg

/-- The operation has a frame of its own (R91): all but the two composites. -/
def Instr.isWire : Instr → Bool
  | .readId _ => true
  | .readUsercode _ => true
  | .readStatus _ => true
  | .readFeatureBits _ => true
  | .readFeatureRow _ => true
  | .readOtp _ => true
  | .readFlash _ => true
  | .readUfm _ => true
  | .eraseUfm _ => true
  | .erase _ => true
  | .enableCfgTransparent _ => true
  | .enableCfgOffline _ => true
  | .isBusy _ => true
  | .resetCfgAddr _ => true
  | .resetUfmAddr _ => true
  | .setCfgAddr _ => true
  | .setUfmAddr _ => true
  | .programPage _ _ => true
  | .programDone _ => true
  | .refresh _ => true
  | .wakeup _ => true
  | .waitBusy _ => false
  | .loadHex _ => false

end Sys2Proof
end

