-- ==== Sys2Proof/Decode.lean ====
section
/-! DEFINITION. Decoding. `decode` is what the block decodes: the command of CMD (spec/30_encoding.md R100, R101). `decodeFrame` is the
decoder of the wire that R99 and R108 describe; it cuts one frame off a list of bytes. After them the encoders. -/

namespace Sys2Proof

/-- Why bytes or a command are no operation. -/
inductive Reject where
  /-- `op` codes 23 to 31 are reserved (R101). -/
  | reservedOp (op : BitVec 5)
  /-- No byte left to decode. -/
  | empty
  /-- The first byte is none of the 20 opcode bytes of R110. -/
  | unknownOpcode (op : Byte)
  /-- Fewer bytes than the opcode's frame has (R99). -/
  | truncated (op : Byte)
  /-- The frame has the opcode and length of a row but not its fixed bits: `w & mask = match` fails (R108). -/
  | fixedBits (op : Byte)
  deriving DecidableEq, Repr

/-- The operation a command selects (R100), or the reserved code it holds (R101). -/
def decode (c : Cmd) : Except Reject Instr :=
  match c.op.toNat with
  | 0 => .ok (.readId c.arg)
  | 1 => .ok (.readUsercode c.arg)
  | 2 => .ok (.readStatus c.arg)
  | 3 => .ok (.readFeatureBits c.arg)
  | 4 => .ok (.readFeatureRow c.arg)
  | 5 => .ok (.readOtp c.arg)
  | 6 => .ok (.readFlash c.arg)
  | 7 => .ok (.readUfm c.arg)
  | 8 => .ok (.eraseUfm c.arg)
  | 9 => .ok (.erase c.arg)
  | 10 => .ok (.enableCfgTransparent c.arg)
  | 11 => .ok (.enableCfgOffline c.arg)
  | 12 => .ok (.isBusy c.arg)
  | 13 => .ok (.resetCfgAddr c.arg)
  | 14 => .ok (.resetUfmAddr c.arg)
  | 15 => .ok (.setCfgAddr c.arg)
  | 16 => .ok (.setUfmAddr c.arg)
  | 17 => .ok (.programPage c.arg c.buf)
  | 18 => .ok (.programDone c.arg)
  | 19 => .ok (.refresh c.arg)
  | 20 => .ok (.wakeup c.arg)
  | 21 => .ok (.waitBusy c.arg)
  | 22 => .ok (.loadHex c.arg)
  | _ => .error (.reservedOp c.op)

/-- The length of a frame from its first byte (R99), `none` for a byte that is no opcode (R110). -/
def frameLen (op : Byte) : Option Nat :=
  if op ∈ [0x74, 0xC6, 0x79] then some 3
  else if op = 0xB4 then some 8
  else if op = 0x70 then some 20
  else if op ∈ [0xE0, 0xC0, 0x3C, 0xFB, 0xE7, 0xFA, 0x73, 0xCA, 0xCB, 0x0E, 0xF0, 0x46, 0x47, 0x5E, 0xFF] then some 4
  else none

/-- The frames of R91 that hold no operand. The bits no frame carries are 0 in the operand word (log 16). -/
def fixedFrames : List (List Byte × Instr) := [
  ([0xE0, 0x00, 0x00, 0x00], .readId 0),
  ([0xC0, 0x00, 0x00, 0x00], .readUsercode 0),
  ([0x3C, 0x00, 0x00, 0x00], .readStatus 0),
  ([0xFB, 0x00, 0x00, 0x00], .readFeatureBits 0),
  ([0xE7, 0x00, 0x00, 0x00], .readFeatureRow 0),
  ([0xFA, 0x00, 0x00, 0x00], .readOtp 0),
  ([0x73, 0x00, 0x00, 0x00], .readFlash 0),
  ([0xCA, 0x00, 0x00, 0x00], .readUfm 0),
  ([0xCB, 0x00, 0x00, 0x00], .eraseUfm 0),
  ([0x74, 0x08, 0x00], .enableCfgTransparent 0),
  ([0xC6, 0x08, 0x00], .enableCfgOffline 0),
  ([0xF0, 0x00, 0x00, 0x00], .isBusy 0),
  ([0x46, 0x00, 0x00, 0x00], .resetCfgAddr 0),
  ([0x47, 0x00, 0x00, 0x00], .resetUfmAddr 0),
  ([0x5E, 0x00, 0x00, 0x00], .programDone 0),
  ([0x79, 0x00, 0x00], .refresh 0),
  ([0xFF, 0xFF, 0xFF, 0xFF], .wakeup 0)]

/-- The operand word of an ERASE frame: `ff` in bits 19:16 (R93, R108). -/
def eraseFlags (ff : Byte) : Word := ff.setWidth 32 <<< 16

/-- The operand word of a set-address frame: `hh ll` in bits 15:0 (R94, R108). -/
def pageArg (hh ll : Byte) : Word := (hh ++ ll).setWidth 32

/-- The operation whose frame is exactly `f` (R91, R108). `pp` is PP_OPERAND: the prefix of a page frame is among its fixed bits (log 17). -/
def decodeExact (pp : BitVec 24) (f : List Byte) : Option Instr :=
  match fixedFrames.lookup f with
  | some i => some i
  | none =>
    match f with
    | [b0, ff, b2, b3] =>
      if b0 = 0x0E ∧ ff &&& 0xF0 = 0 ∧ b2 = 0 ∧ b3 = 0 then some (.erase (eraseFlags ff)) else none
    | [b0, b1, b2, b3, tgt, b5, hh, ll] =>
      if b0 = 0xB4 ∧ b1 = 0 ∧ b2 = 0 ∧ b3 = 0 ∧ b5 = 0 then
        if tgt = Machine.tgtCfg then some (.setCfgAddr (pageArg hh ll))
        else if tgt = Machine.tgtUfm then some (.setUfmAddr (pageArg hh ll))
        else none
      else none
    | _ =>
      if h : f.length = 20 then
        if f.take 4 = Machine.pagePrefix pp then some (.programPage 0 ⟨f.toArray, by simpa using h⟩) else none
      else none

/-- One frame off the front of `bs`: the operation and the bytes after it, or why there is none (R99, R108, R110). -/
def decodeFrame (pp : BitVec 24) (bs : List Byte) : Except Reject (Instr × List Byte) :=
  match bs with
  | [] => .error .empty
  | op :: _ =>
    match frameLen op with
    | none => .error (.unknownOpcode op)
    | some n =>
      if bs.length < n then .error (.truncated op)
      else
        match decodeExact pp (bs.take n) with
        | some i => .ok (i, bs.drop n)
        | none => .error (.fixedBits op)

/-- The command that selects an operation (R100). -/
def encode (i : Instr) : Cmd := { op := Machine.opsel i, arg := Machine.argOf i, buf := Machine.bufOf i }

/-- The frame of an operation as bytes: what the Command Encoder sends (R91). -/
def encodeFrame (i : Instr) : List Byte := Machine.frameBytes i

/-- The bytes of a frame given as one big-endian number: byte 0 is the most significant (R108). -/
def bytesOfNat : Nat → Nat → List Byte
  | 0, _ => []
  | n + 1, w => bytesOfNat n (w / 256) ++ [BitVec.ofNat 8 w]

/-- The operation of a word of spec/opcode_table.json, numbered as the table numbers it (R108): a frame of `nbits` bits read as one
big-endian number, bit 0 the last bit of the last byte. A SEQ row has no frame; its word is the op select code alone, with no operands
(`nbits` at most 16; no frame is that short). PP_OPERAND has its default, as in the table. Log 15. -/
def decodeTableWord (nbits w : Nat) : Option Instr :=
  if nbits ≤ 16 then
    if w < 32 then (decode { op := BitVec.ofNat 5 w, arg := 0, buf := zeroBuf }).toOption else none
  else
    match decodeFrame 0 (bytesOfNat (nbits / 8) w) with
    | .ok (i, []) => some i
    | .ok (_, _ :: _) => none
    | .error _ => none

end Sys2Proof
end

