-- ==== Sys2Proof/Machine/Supply.lean ====
section
/-! DEFINITION. What one agent of the environment will present on its channel: items in the order in which the block takes them, without an
end that the model would have to fix (spec/00_scope.md R8, R9; log 2). -/

namespace Sys2Proof.Machine

/-- What an agent presents after the items that are listed. -/
inductive Later (α : Type) where
  /-- Nothing more, ever: the block waits (spec/40_sequencer.md R141). -/
  | nothing
  /-- These items in this order, over and over: a supply that never ends (spec/43_busy_wait.md R215, spec/60_exceptions.md R268). -/
  | again (item : α) (items : List α)
  /-- Free values without end: item `index` of the arbitrary sequence number `stream`, and on from there (log 22). -/
  | free (stream index : Nat)
  deriving DecidableEq, Repr

/-- The items that are listed, oldest first, and what comes after them. The default is an agent that presents nothing. -/
structure Supply (α : Type) where
  now   : List α := []
  later : Later α := .nothing
  deriving DecidableEq, Repr

/-- The next item and what is left, or `none` from an agent that presents nothing more. `draw` names the free values of the channel. -/
def Supply.pop {α : Type} (draw : Nat → Nat → α) (q : Supply α) : Option (α × Supply α) :=
  match q.now, q.later with
  | x :: rest, later => some (x, { now := rest, later := later })
  | [], .nothing => none
  | [], .again x items => some (x, { now := items, later := .again x items })
  | [], .free stream index => some (draw stream index, { now := [], later := .free stream (index + 1) })

/-- What is left when the next item, if there is one, is used up. -/
def Supply.rest {α : Type} (draw : Nat → Nat → α) (q : Supply α) : Supply α :=
  match q.pop draw with
  | some (_, left) => left
  | none => q

/-- `q` with one item before all others. -/
def Supply.push {α : Type} (x : α) (q : Supply α) : Supply α := { q with now := x :: q.now }

end Sys2Proof.Machine
end

