-- ==== Sys2Proof/Machine/State.lean ====
section
/-! DEFINITION. The state of the block: the registers of spec/10_state.md R20, and beside them the parameters, the channels and the model's
own draw counter. The update of one register is a record update; the operations over them are in Machine/Ops.lean. -/

namespace Sys2Proof.Machine

/-- The sequencer state `seq` (R21). Codes 6 and 7 are "unreachable" and left out (log 11). -/
inductive Seq where
  | ready
  | xact
  | poll
  | lhReset
  | lhStream
  | lhFlush
  deriving DecidableEq, Repr

/-- The lifecycle state `life` (R26). Code 7 is "unreachable" and left out (log 11). -/
inductive Life where
  | idle
  | addrReset1
  | erasing
  | addrReset2
  | programming
  | finalizing
  | activated
  deriving DecidableEq, Repr

/-- The error code `r_err` (spec/60_exceptions.md R269). Codes 5 to 7 are "never produced" and left out (log 11). -/
inductive Err where
  | ok
  | illegalOp
  | range
  | order
  | timeout
  deriving DecidableEq, Repr

/-- An anomaly on AN (spec/60_exceptions.md R270). -/
inductive Anomaly where
  | oddDigits
  | overflow
  deriving DecidableEq, Repr

/-- The response record (R39). Each default is the 0 that "a field not named in a `respond` call" is written. -/
structure Response where
  op     : BitVec 5 := 0
  err    : Err := .ok
  status : Word := 0
  len    : BitVec 5 := 0
  data   : Payload := zeroPayload
  busy   : Bool := false
  count  : Word := 0
  pages  : Word := 0
  left   : BitVec 5 := 0
  nOdd   : BitVec 16 := 0
  nOvf   : BitVec 16 := 0
  deriving DecidableEq, Repr

/-- One return of `Transact` (spec/00_scope.md R10). `bytes` holds the longest read; `r` is its first `rn` bytes (log 4). -/
structure Answer where
  status : Word
  bytes  : Payload
  deriving DecidableEq, Repr

/-- One token of HS (spec/00_scope.md R9). -/
inductive Token where
  | char (c : Byte)
  | eos
  deriving DecidableEq, Repr

/-- The request `(w, wn, rn)` of one `Transact` (spec/00_scope.md R10). -/
structure Request where
  w  : List Byte
  wn : BitVec 5
  rn : BitVec 5
  deriving DecidableEq, Repr

/-- What the block puts on its channels: a completed transaction with what the transport gave back, a response, an anomaly (log 5). -/
inductive Event where
  | tx (req : Request) (status : Word) (r : List Byte)
  | rsp (resp : Response)
  | an (code : Anomaly)
  deriving DecidableEq, Repr

/-- The state. The registers carry the spec's names in camel case. -/
structure State where
  -- DCSM, CE and BWS (R21 to R31)
  seq       : Seq
  curOp     : BitVec 5
  curArg    : Word
  fb        : Buf
  wn        : BitVec 5
  rn        : BitVec 5
  stAcc     : Word
  pollCnt   : Word
  life      : Life
  cfgPos    : Bool
  ufmPos    : Bool
  erasePend : Bool
  seqViol   : Bool
  xfail     : Bool
  -- PBR (R32 to R37): `pb[4..19]`; the prefix `pb[0..3]` is hard-wired, see `pb` in Machine/Ops.lean
  pbPayload : Payload
  cnt       : BitVec 5
  haveHi    : Bool
  hiNib     : BitVec 4
  recFull   : Bool
  recOvf    : Bool
  pages     : Word
  nOdd      : BitVec 16
  nOvf      : BitVec 16
  -- the last response (R39)
  r         : Response
  -- the parameters (spec/00_scope.md R6; log 1)
  params    : Params
  -- what the environment will present (spec/00_scope.md R9; log 2, log 3)
  cmdIn     : Supply Cmd
  txIn      : Supply Answer
  hsIn      : Supply Token
  rstIn     : Supply Bool
  -- what the block has put out, oldest first (log 5)
  trace     : List Event
  -- the model's own: the number of the next free value (log 8, log 10)
  draws     : Nat
  deriving DecidableEq, Repr

/-- There is no fault: "no failure stops the block" (spec/60_exceptions.md R260; log 21). -/
inductive Fault where
  deriving DecidableEq, Repr

/-- The one refusal. -/
inductive Refusal where
  /-- Raised by `exec` for an instruction that has no meaning yet; no arm raises it. Safe: the machine stops. -/
  | notModelled (mnemonic : String)
  deriving DecidableEq, Repr

/-- The state after reset (R44; spec/70_reset_and_hazards.md R300), with the default parameters of R6, nothing presented and nothing put
out. DESIGN CHOICE (log 9, unsafe): `fb`, `pb[4..19]` and `hi_nib`, which R44 leaves unspecified, are zero here. -/
def State.reset : State where
  seq := .ready
  curOp := 0
  curArg := 0
  fb := zeroBuf
  wn := 0
  rn := 0
  stAcc := 0
  pollCnt := 0
  life := .idle
  cfgPos := false
  ufmPos := false
  erasePend := false
  seqViol := false
  xfail := false
  pbPayload := zeroPayload
  cnt := 0
  haveHi := false
  hiNib := 0
  recFull := false
  recOvf := false
  pages := 0
  nOdd := 0
  nOvf := 0
  r := {}
  params := {}
  cmdIn := {}
  txIn := {}
  hsIn := {}
  rstIn := {}
  trace := []
  draws := 0

/-- The outcome of a step of this machine. -/
abbrev Result := Host.Outcome State Fault Refusal

end Sys2Proof.Machine
end

