-- ==== Sys2Proof/Machine/Flags.lean ====
section
/-! DEFINITION. The lifecycle, the legality predicate, the shadow flags and the STAT word. spec/40_sequencer.md R132 to R135 and R142,
spec/10_state.md R21, R26 and R40, spec/60_exceptions.md R269 and R270. -/

namespace Sys2Proof.Machine

/-- The code of `seq` (spec/10_state.md R21). -/
def seqCode : Seq → BitVec 3
  | .ready => 0
  | .xact => 1
  | .poll => 2
  | .lhReset => 3
  | .lhStream => 4
  | .lhFlush => 5

/-- The code of `life` (spec/10_state.md R26). -/
def lifeCode : Life → BitVec 3
  | .idle => 0
  | .addrReset1 => 1
  | .erasing => 2
  | .addrReset2 => 3
  | .programming => 4
  | .finalizing => 5
  | .activated => 6

/-- The code of `r_err` (spec/60_exceptions.md R269). -/
def errCode : Err → BitVec 3
  | .ok => 0
  | .illegalOp => 1
  | .range => 2
  | .order => 3
  | .timeout => 4

/-- The code of an anomaly (spec/60_exceptions.md R270). -/
def anomalyCode : Anomaly → BitVec 2
  | .oddDigits => 1
  | .overflow => 2

/-- The lifecycle classes A, E, P, D, R and N (R142). -/
inductive LifeClass where
  | addr
  | erase
  | page
  | done
  | refresh
  | neutral
  deriving DecidableEq, Repr

/-- The class of an operation's frame (R142). ERASE is of class E when its configuration-flash bit `arg[18]` is set. -/
def lifeClass : Instr → LifeClass
  | .readId _ => .neutral
  | .readUsercode _ => .neutral
  | .readStatus _ => .neutral
  | .readFeatureBits _ => .neutral
  | .readFeatureRow _ => .neutral
  | .readOtp _ => .neutral
  | .readFlash _ => .neutral
  | .readUfm _ => .neutral
  | .eraseUfm _ => .neutral
  | .erase flags => if flags.getLsbD 18 then .erase else .neutral
  | .enableCfgTransparent _ => .neutral
  | .enableCfgOffline _ => .neutral
  | .isBusy _ => .neutral
  | .resetCfgAddr _ => .addr
  | .resetUfmAddr _ => .neutral
  | .setCfgAddr _ => .addr
  | .setUfmAddr _ => .neutral
  | .programPage _ _ => .page
  | .programDone _ => .done
  | .refresh _ => .refresh
  | .wakeup _ => .neutral
  | .waitBusy _ => .neutral
  | .loadHex _ => .neutral

/-- `life_next(class, life)`, `none` where the table of R133 has a dash. -/
def lifeNext : LifeClass → Life → Option Life
  | .addr, .idle => some .addrReset1
  | .addr, .addrReset1 => some .addrReset1
  | .addr, .erasing => some .addrReset2
  | .addr, .addrReset2 => some .addrReset2
  | .addr, .programming => none
  | .addr, .finalizing => none
  | .addr, .activated => some .addrReset1
  | .erase, .idle => none
  | .erase, .addrReset1 => some .erasing
  | .erase, .erasing => none
  | .erase, .addrReset2 => none
  | .erase, .programming => none
  | .erase, .finalizing => none
  | .erase, .activated => none
  | .page, .idle => none
  | .page, .addrReset1 => none
  | .page, .erasing => none
  | .page, .addrReset2 => some .programming
  | .page, .programming => some .programming
  | .page, .finalizing => none
  | .page, .activated => none
  | .done, .idle => none
  | .done, .addrReset1 => none
  | .done, .erasing => none
  | .done, .addrReset2 => none
  | .done, .programming => some .finalizing
  | .done, .finalizing => none
  | .done, .activated => none
  | .refresh, .idle => none
  | .refresh, .addrReset1 => none
  | .refresh, .erasing => none
  | .refresh, .addrReset2 => none
  | .refresh, .programming => none
  | .refresh, .finalizing => some .activated
  | .refresh, .activated => none
  | .neutral, l => some l

/-- `life_ok(class, life)` (R133). -/
def lifeOk (c : LifeClass) (l : Life) : Bool := (lifeNext c l).isSome

/-- `ptr_ok(op)` (R132). -/
def ptrOk (i : Instr) (s : State) : Bool :=
  match i with
  | .readId _ => true
  | .readUsercode _ => true
  | .readStatus _ => true
  | .readFeatureBits _ => true
  | .readFeatureRow _ => true
  | .readOtp _ => true
  | .readFlash _ => s.cfgPos
  | .readUfm _ => s.ufmPos
  | .eraseUfm _ => true
  | .erase _ => true
  | .enableCfgTransparent _ => true
  | .enableCfgOffline _ => true
  | .isBusy _ => true
  | .resetCfgAddr _ => true
  | .resetUfmAddr _ => true
  | .setCfgAddr _ => true
  | .setUfmAddr _ => true
  | .programPage _ _ => s.cfgPos
  | .programDone _ => true
  | .refresh _ => true
  | .wakeup _ => true
  | .waitBusy _ => true
  | .loadHex _ => true

/-- Nothing but a poll is in order while an erase is pending; then the lifecycle and the pointer decide (R132, the last line of `legal`). -/
def frameLegal (i : Instr) (s : State) : Bool := !s.erasePend && lifeOk (lifeClass i) s.life && ptrOk i s

/-- `legal(op, arg)` on the current shadow state (R132). -/
def legal (i : Instr) (s : State) : Bool :=
  match i with
  | .readId arg => frameLegal (.readId arg) s
  | .readUsercode arg => frameLegal (.readUsercode arg) s
  | .readStatus arg => frameLegal (.readStatus arg) s
  | .readFeatureBits arg => frameLegal (.readFeatureBits arg) s
  | .readFeatureRow arg => frameLegal (.readFeatureRow arg) s
  | .readOtp arg => frameLegal (.readOtp arg) s
  | .readFlash arg => frameLegal (.readFlash arg) s
  | .readUfm arg => frameLegal (.readUfm arg) s
  | .eraseUfm arg => frameLegal (.eraseUfm arg) s
  | .erase arg => frameLegal (.erase arg) s
  | .enableCfgTransparent arg => frameLegal (.enableCfgTransparent arg) s
  | .enableCfgOffline arg => frameLegal (.enableCfgOffline arg) s
  | .isBusy _ => true
  | .resetCfgAddr arg => frameLegal (.resetCfgAddr arg) s
  | .resetUfmAddr arg => frameLegal (.resetUfmAddr arg) s
  | .setCfgAddr arg => frameLegal (.setCfgAddr arg) s
  | .setUfmAddr arg => frameLegal (.setUfmAddr arg) s
  | .programPage arg buf => frameLegal (.programPage arg buf) s
  | .programDone arg => frameLegal (.programDone arg) s
  | .refresh arg => frameLegal (.refresh arg) s
  | .wakeup arg => frameLegal (.wakeup arg) s
  | .waitBusy _ => true
  | .loadHex _ => !s.erasePend && (s.life == .erasing || s.life == .addrReset2)

/-- `flag_effects(op)`: what a frame that was sent with status 0 does to the shadow flags. `b` is `r[0]` of IS_BUSY (R134). -/
def flagEffects (i : Instr) (b : Byte) (s : State) : State :=
  match i with
  | .readId _ => s
  | .readUsercode _ => s
  | .readStatus _ => s
  | .readFeatureBits _ => s
  | .readFeatureRow _ => s
  | .readOtp _ => s
  | .readFlash _ => s
  | .readUfm _ => s
  | .eraseUfm _ => { s with erasePend := true }
  | .erase _ => { s with erasePend := true }
  | .enableCfgTransparent _ => s
  | .enableCfgOffline _ => s
  | .isBusy _ => { s with erasePend := s.erasePend && busyBit b }
  | .resetCfgAddr _ => { s with cfgPos := true }
  | .resetUfmAddr _ => { s with ufmPos := true }
  | .setCfgAddr _ => { s with cfgPos := true }
  | .setUfmAddr _ => { s with ufmPos := true }
  | .programPage _ _ => s
  | .programDone _ => s
  | .refresh _ => { s with cfgPos := false, ufmPos := false }
  | .wakeup _ => s
  | .waitBusy _ => s
  | .loadHex _ => s

/-- `issue_check(op, arg)`, when a frame is formed (R135). -/
def issueCheck (i : Instr) (s : State) : State := if legal i s then s else { s with seqViol := true }

/-- `if ok: life <- life_next(class, life)` (R135). A frame that is in order has no dash. -/
def moveLife (i : Instr) (ok : Bool) (s : State) : State :=
  if ok then { s with life := (lifeNext (lifeClass i) s.life).getD s.life } else s

/-- `apply_effects(op, arg, r)`, when a frame's transaction returned status 0; `ok` is computed before the flags move (R135). -/
def applyEffects (i : Instr) (b : Byte) (s : State) : State := moveLife i (legal i s) (flagEffects i b s)

/-- The STAT word: a read-only view, bits 15:11 read as 0 (spec/10_state.md R40). -/
def State.stat (s : State) : BitVec 16 :=
  (lifeCode s.life).setWidth 16
    ||| ((BitVec.ofBool s.cfgPos).setWidth 16 <<< 3)
    ||| ((BitVec.ofBool s.ufmPos).setWidth 16 <<< 4)
    ||| ((BitVec.ofBool s.erasePend).setWidth 16 <<< 5)
    ||| ((BitVec.ofBool s.seqViol).setWidth 16 <<< 6)
    ||| ((BitVec.ofBool s.xfail).setWidth 16 <<< 7)
    ||| ((seqCode s.seq).setWidth 16 <<< 8)

end Sys2Proof.Machine
end

