-- ==== Sys2Proof/Machine/Ops.lean ====
section
/-! DEFINITION. The steps that every operation shares: responding, refusing (the block's form of taking an exception), forming a frame,
accepting a command, a transaction's return, RST, and what a step fetches. spec/40_sequencer.md R130 to R137, spec/60_exceptions.md R273,
spec/70_reset_and_hazards.md R300 to R302. -/

namespace Sys2Proof.Machine

/-- The page buffer `pb[0..19]`: a hard-wired prefix and the stored payload (spec/10_state.md R32). -/
def pb (s : State) : Buf := pageBuffer s.params.ppOperand s.pbPayload

/-! ### The free values of the channels (log 22) -/

/-- A free command on CMD. -/
def freeCmd (stream index : Nat) : Cmd :=
  { op := Config.freeOp stream index, arg := Config.freeArg stream index, buf := Config.freeBuf stream index }

/-- A free answer on TX: "Both `status` and `r` are chosen by the environment; no rule constrains them" (spec/00_scope.md R10). -/
def freeAnswer (stream index : Nat) : Answer := { status := Config.freeStatus stream index, bytes := Config.freeBytes stream index }

/-- A free token on HS. -/
def freeToken (stream index : Nat) : Token :=
  match Config.freeToken stream index with
  | some c => .char c
  | none => .eos

/-! ### Output, refusals, frames -/

/-- Puts one event out on TX, RSP or AN (log 5). -/
def emit (e : Event) (s : State) : State := { s with trace := s.trace ++ [e] }

/-- `respond(fields)`: all `r_*` registers are written together, the same record goes out on RSP, and `seq <- READY`
(spec/00_scope.md R13, spec/10_state.md R39). -/
def respond (resp : Response) (s : State) : State :=
  { s with r := resp, seq := .ready, trace := s.trace ++ [.rsp resp] }

/-- A refusal at accept, the block's form of an exception: `r_op` and the cause are recorded, every other field is 0, control stays in
READY, and nothing else is written (spec/60_exceptions.md R273). The block has no return from an exception: "nothing to restore" (R275). -/
def refuse (op : BitVec 5) (cause : Err) (s : State) : State := respond { op := op, err := cause } s

/-- `(fb, wn, rn) <- frame(op, arg, buf)` (R130). The bytes of `fb` beyond the frame are a free value (log 8). -/
def loadFrame (i : Instr) (s : State) : State :=
  { s with
    fb := overlay (frameBytes i) (Config.fbTail s.draws)
    wn := BitVec.ofNat 5 (frameBytes i).length
    rn := readLen i
    draws := s.draws + 1 }

/-- The pending request: `(fb[0..wn-1], wn, rn)`, or `(pb[0..19], 20, 0)` in LH_FLUSH (R136). -/
def request (s : State) : Request :=
  match s.seq with
  | .lhFlush => { w := (pb s).toList, wn := 20, rn := 0 }
  | .ready | .xact | .poll | .lhReset | .lhStream => { w := s.fb.toList.take s.wn.toNat, wn := s.wn, rn := s.rn }

/-- A transaction is pending: the states in which TX is enabled (spec/00_scope.md R9). -/
def txPending : Seq → Bool
  | .xact | .poll | .lhReset | .lhFlush => true
  | .ready | .lhStream => false

/-! ### The accept step -/

/-- The range check of R130: a page number of 2^16 or more under `PAGE_OOR = REFUSE` (spec/30_encoding.md R103). -/
def rangeRefused (i : Instr) (p : Params) : Bool := !i.pageFits && p.pageOor == .refuse

/-- The order check of R130: `seq_viol` is set in both modes, and `HARDEN = 1` refuses (R139). `start` is the operation's own part. -/
def acceptOrdered (i : Instr) (start : State → State) (s : State) : State :=
  if legal i s then start { s with curOp := opsel i, curArg := argOf i, stAcc := 0 }
  else if s.params.harden then refuse (opsel i) .order { s with seqViol := true }
  else start { s with seqViol := true, curOp := opsel i, curArg := argOf i, stAcc := 0 }

/-- `Accept(op, arg, buf)` for a defined `op` (R130): the range check, then the order check (R131). -/
def accept (i : Instr) (start : State → State) (s : State) : State :=
  if rangeRefused i s.params then refuse (opsel i) .range s else acceptOrdered i start s

/-- `otherwise` in R130: the frame is formed and its transaction is pending. -/
def startXact (i : Instr) (s : State) : State := { loadFrame i s with seq := .xact }

/-- The case WAIT_BUSY of R130 (spec/43_busy_wait.md R211). -/
def startPoll (s : State) : State := { loadFrame (.isBusy 0) { s with pollCnt := 0 } with seq := .poll }

/-- The loader registers that an accept of LOAD_HEX clears (R130; spec/44_hex_loader.md R230). -/
def clearLoader (s : State) : State :=
  { s with cnt := 0, haveHi := false, recFull := false, recOvf := false, pages := 0, nOdd := 0, nOvf := 0 }

/-- The case LOAD_HEX of R130. -/
def startLoad (s : State) : State :=
  { loadFrame (.resetCfgAddr 0) (issueCheck (.resetCfgAddr 0) (clearLoader s)) with seq := .lhReset }

/-! ### The transaction return -/

/-- The common part of every return (R136): the transaction is now complete, and a non-zero status is latched. -/
def recordReturn (a : Answer) (s : State) : State :=
  let done := emit (.tx (request s) a.status (readBytes (request s).rn a.bytes)) s
  if a.status = 0 then done
  else { done with xfail := true, stAcc := if s.stAcc = 0 then a.status else s.stAcc }

/-- One `Transact`: the common part and then `k`, the part particular to `seq`. Where the transport presents no answer the block waits (R141;
log 2); it may also answer for ever (spec/43_busy_wait.md R215). -/
def onReturn (k : Answer → State → State) (s : State) : State :=
  match s.txIn.pop freeAnswer with
  | none => s
  | some (a, rest) => k a (recordReturn a { s with txIn := rest })

/-- The effects of a frame, skipped when its transaction failed (R135). -/
def effectsIfOk (i : Instr) (a : Answer) (s : State) : State :=
  if a.status = 0 then applyEffects i a.bytes[0] s else s

/-- The response of a simple operation (R137). -/
def xactResponse (a : Answer) (s : State) : Response :=
  { op := s.curOp
    status := s.stAcc
    len := s.rn
    data := dataField s.rn a.bytes
    busy := s.curOp == 12 && busyBit a.bytes[0] }

/-- Return in XACT (R137). -/
def xactReturn (i : Instr) (a : Answer) (s : State) : State :=
  respond (xactResponse a s) (effectsIfOk i a s)

/-- `i` is the command accepted last: `cur_op` and `cur_arg` are its own (spec/10_state.md R22). -/
def isCurrent (i : Instr) (s : State) : Bool := s.curOp == opsel i && s.curArg == argOf i

/-- The next atomic step of a simple operation (R140): in READY it is accepted; when its own transaction is pending it takes the return;
while another operation is in flight it waits on CMD (spec/00_scope.md R11; log 14). -/
def simpleOp (i : Instr) (s : State) : State :=
  match s.seq with
  | .ready => accept i (startXact i) s
  | .xact => if isCurrent i s then onReturn (xactReturn i) s else s
  | .poll | .lhReset | .lhStream | .lhFlush => s

/-! ### RST and fetch -/

/-- The RST event (spec/70_reset_and_hazards.md R300): every register at its reset value, whatever `seq` is, nothing emitted. The three
registers that R44 leaves unspecified are free values (log 10). The answer of an abandoned transaction is dropped (R302; log 6); commands
and tokens stay with their sources (R302; log 7). -/
def rst (s : State) : State :=
  { State.reset with
    fb := Config.rstFb s.draws
    pbPayload := Config.rstPayload s.draws
    hiNib := Config.rstHiNib s.draws
    params := s.params
    cmdIn := s.cmdIn
    txIn := if txPending s.seq then s.txIn.rest freeAnswer else s.txIn
    hsIn := s.hsIn
    rstIn := s.rstIn
    trace := s.trace
    draws := s.draws + 1 }

/-- RST is asserted at this step: the next sample says so; with no sample it is not (log 3). -/
def rstNow (s : State) : Bool :=
  match s.rstIn.pop Config.freeRst with
  | some (asserted, _) => asserted
  | none => false

/-- The sample is used up. -/
def useRstSample (s : State) : State := { s with rstIn := s.rstIn.rest Config.freeRst }

/-- What the block finds to do at a step. -/
inductive Fetched where
  /-- Run `i`: a command just taken from CMD, or the operation in flight. -/
  | run (i : Instr) (s : State)
  /-- A command with a reserved `op` was taken from CMD. -/
  | illegal (op : BitVec 5) (s : State)
  /-- Nothing: no command is on CMD. -/
  | idle

/-- The operation in flight while its transaction is pending in XACT: the command accepted last (spec/10_state.md R22, R23). -/
def inFlight (s : State) : Except Reject Instr := decode { op := s.curOp, arg := s.curArg, buf := s.fb }

/-- What the next step runs, by `seq` (spec/10_state.md R21, R41). In XACT a `cur_op` above 22, which no run reaches, leaves the block
waiting (log 13). -/
def fetch (s : State) : Fetched :=
  match s.seq with
  | .ready =>
    match s.cmdIn.pop freeCmd with
    | none => .idle
    | some (c, rest) =>
      match decode c with
      | .ok i => .run i { s with cmdIn := rest }
      | .error _ => .illegal c.op { s with cmdIn := rest }
  | .xact =>
    match inFlight s with
    | .ok i => .run i s
    | .error _ => .idle
  | .poll => .run (.waitBusy s.curArg) s
  | .lhReset | .lhStream | .lhFlush => .run (.loadHex s.curArg) s

end Sys2Proof.Machine
end

