-- ==== Sys2Proof/Machine/BusyWait.lean ====
section
/-! DEFINITION. The busy-wait sequencer: IS_BUSY and WAIT_BUSY, spec/43_busy_wait.md R210 to R215. -/

namespace Sys2Proof.Machine

/-- IS_BUSY (R210): frame `F0 00 00 00`, read length 1, always legal; a ready poll with status 0 clears `erase_pend`. -/
def execIsBusy (arg : Word) (s : State) : Result := .next (simpleOp (.isBusy arg) s)

/-- A ready poll with status 0 clears `erase_pend` (R212; spec/40_sequencer.md R134). -/
def readyPoll (a : Answer) (s : State) : State := if a.status = 0 then { s with erasePend := false } else s

/-- The response of WAIT_BUSY (R212). -/
def pollResponse (err : Err) (a : Answer) (s : State) : Response :=
  { op := 21
    err := err
    status := s.stAcc
    len := 1
    data := dataField 1 a.bytes
    busy := busyBit a.bytes[0]
    count := s.pollCnt }

/-- One busy poll is counted, with saturation (R212, R213). -/
def countPoll (s : State) : State := { s with pollCnt := satInc s.pollCnt }

/-- `POLL_LIMIT != 0 and poll_cnt >= POLL_LIMIT` (R212, R214). -/
def limitReached (s : State) : Bool := s.params.pollLimit != 0 && s.params.pollLimit ≤ s.pollCnt

/-- The part of R212 for a byte with bit 7 set: count, then give up or poll again with the same frame. -/
def busyPoll (a : Answer) (s : State) : State :=
  if limitReached s then respond (pollResponse .timeout a s) s else s

/-- The poll step (R212). Only bit 7 of the byte just read decides. -/
def pollReturn (a : Answer) (s : State) : State :=
  if busyBit a.bytes[0] then busyPoll a (countPoll s)
  else respond (pollResponse .ok a s) (readyPoll a s)

/-- WAIT_BUSY (R211): in READY it is accepted, in POLL it takes the return of one poll; otherwise it waits on CMD (log 14). -/
def execWaitBusy (arg : Word) (s : State) : Result :=
  match s.seq with
  | .ready => .next (accept (.waitBusy arg) startPoll s)
  | .poll => .next (onReturn pollReturn s)
  | .xact | .lhReset | .lhStream | .lhFlush => .next s

end Sys2Proof.Machine
end

