-- ==== Sys2Proof/Machine/HexLoader.lean ====
section
/-! DEFINITION. The page-buffer reassembler: LOAD_HEX, spec/44_hex_loader.md R230 to R242. -/

namespace Sys2Proof.Machine

/-- Return in LH_RESET: the effects of the RESET_CFG_ADDR frame, then the stream, whatever the status (R231). -/
def resetReturn (a : Answer) (s : State) : State := { effectsIfOk (.resetCfgAddr 0) a s with seq := .lhStream }

/-- Return in LH_FLUSH: the effects of the PROGRAM_PAGE frame, then the stream, whatever the status (R235). -/
def flushReturn (a : Answer) (s : State) : State := { effectsIfOk (.programPage 0 (pb s)) a s with seq := .lhStream }

/-- The flush (R234): the page transaction is pending, its request is `(pb[0..19], 20, 0)`. -/
def flush (s : State) : State :=
  { issueCheck (.programPage 0 (pb s)) s with
    pages := satInc s.pages
    cnt := 0
    recFull := true
    seq := .lhFlush }

/-- The first byte stored in a record after a flush is an overflow, reported once per record (R233, R238). -/
def noteOverflow (s : State) : State :=
  if s.recFull && !s.recOvf then { emit (.an .overflow) s with nOvf := satInc s.nOvf, recOvf := true } else s

/-- `pb[4 + cnt] <- byte; cnt <- cnt + 1` (R233). A `cnt` above 15, which no run reaches, addresses no payload byte (log 12). -/
def putByte (b : Byte) (s : State) : State :=
  { s with pbPayload := s.pbPayload.setIfInBounds s.cnt.toNat b, cnt := s.cnt + 1 }

/-- `if cnt = 16: flush` (R233). -/
def flushIfFull (s : State) : State := if s.cnt = 16 then flush s else s

/-- The second digit of a pair: the byte is decoded and stored, in the order of R233. -/
def secondDigit (v : BitVec 4) (s : State) : State :=
  flushIfFull (putByte (hexByte s.hiNib v) (noteOverflow { s with haveHi := false }))

/-- The first digit of a pair (R232). -/
def firstDigit (v : BitVec 4) (s : State) : State := { s with hiNib := v, haveHi := true }

/-- A hex digit (R232, R233). -/
def hexDigit (v : BitVec 4) (s : State) : State := if s.haveHi then secondDigit v s else firstDigit v s

/-- A dangling digit is reported and dropped (R239). -/
def dropDigit (s : State) : State :=
  if s.haveHi then { emit (.an .oddDigits) s with nOdd := satInc s.nOdd, haveHi := false } else s

/-- A record separator (R236). -/
def separator (s : State) : State := { dropDigit s with cnt := 0, recFull := false, recOvf := false }

/-- The response of LOAD_HEX (R237). -/
def loadResponse (s : State) : Response :=
  { op := 22, status := s.stAcc, pages := s.pages, left := s.cnt, nOdd := s.nOdd, nOvf := s.nOvf }

/-- The end of the stream (R237); `cnt` keeps the leftover count. -/
def endOfStream (s : State) : State := respond (loadResponse (dropDigit s)) (dropDigit s)

/-- One token (R232 to R237). -/
def token (t : Token) (s : State) : State :=
  match t with
  | .eos => endOfStream s
  | .char c =>
    match hexValue c with
    | some v => hexDigit v s
    | none => separator s

/-- The token step of LH_STREAM. Where the source presents no token the block waits (spec/40_sequencer.md R141; log 2). -/
def onToken (s : State) : State :=
  match s.hsIn.pop freeToken with
  | none => s
  | some (t, rest) => token t { s with hsIn := rest }

/-- LOAD_HEX (R230): in READY it is accepted, in the LH states it takes its next step; otherwise it waits on CMD (log 14). -/
def execLoadHex (arg : Word) (s : State) : Result :=
  match s.seq with
  | .ready => .next (accept (.loadHex arg) startLoad s)
  | .lhReset => .next (onReturn resetReturn s)
  | .lhStream => .next (onToken s)
  | .lhFlush => .next (onReturn flushReturn s)
  | .xact | .poll => .next s

end Sys2Proof.Machine
end

