-- ==== Sys2Proof/Machine/ReadOps.lean ====
section
/-! DEFINITION. The eight read operations, spec/41_read_ops.md R160 to R167. What is particular to each (the frame, the read length,
the class, the pointer condition, the flag effects) is in the tables of Machine/Operands.lean and Machine/Flags.lean; the steps are those of R140. -/

namespace Sys2Proof.Machine

/-- READ_ID (R160): frame `E0 00 00 00`, read length 4, class N, no pointer condition, no flag effects. -/
def execReadId (arg : Word) (s : State) : Result := .next (simpleOp (.readId arg) s)

/-- READ_USERCODE (R161): frame `C0 00 00 00`, read length 4, class N, no pointer condition, no flag effects. -/
def execReadUsercode (arg : Word) (s : State) : Result := .next (simpleOp (.readUsercode arg) s)

/-- READ_STATUS (R162): frame `3C 00 00 00`, read length 4, class N, no pointer condition; it never clears `erase_pend`. -/
def execReadStatus (arg : Word) (s : State) : Result := .next (simpleOp (.readStatus arg) s)

/-- READ_FEATURE_BITS (R163): frame `FB 00 00 00`, read length 2, class N, no pointer condition, no flag effects. -/
def execReadFeatureBits (arg : Word) (s : State) : Result := .next (simpleOp (.readFeatureBits arg) s)

/-- READ_FEATURE_ROW (R164): frame `E7 00 00 00`, read length 8, class N, no pointer condition, no flag effects. -/
def execReadFeatureRow (arg : Word) (s : State) : Result := .next (simpleOp (.readFeatureRow arg) s)

/-- READ_OTP (R165): frame `FA 00 00 00`, read length 1, class N; its bit 7 is no busy flag. -/
def execReadOtp (arg : Word) (s : State) : Result := .next (simpleOp (.readOtp arg) s)

/-- READ_FLASH (R166): frame `73 00 00 00`, read length 16, class N, needs `cfg_pos = 1`. -/
def execReadFlash (arg : Word) (s : State) : Result := .next (simpleOp (.readFlash arg) s)

/-- READ_UFM (R167): frame `CA 00 00 00`, read length 16, class N, needs `ufm_pos = 1`. -/
def execReadUfm (arg : Word) (s : State) : Result := .next (simpleOp (.readUfm arg) s)

end Sys2Proof.Machine
end

