-- ==== Sys2Proof/Machine/WriteOps.lean ====
section
/-! DEFINITION. The twelve write-only operations, spec/42_write_ops.md R180 to R191, over the steps of R140. -/

namespace Sys2Proof.Machine

/-- ERASE_UFM (R180): frame `CB 00 00 00`, class N; status 0 sets `erase_pend`. -/
def execEraseUfm (arg : Word) (s : State) : Result := .next (simpleOp (.eraseUfm arg) s)

/-- ERASE (R181): frame `0E ff 00 00`, class E when `flags[18] = 1`, else N; status 0 sets `erase_pend`. -/
def execErase (flags : Word) (s : State) : Result := .next (simpleOp (.erase flags) s)

/-- ENABLE_CFG_TRANSPARENT (R182): frame `74 08 00`, class N, no flag effects. -/
def execEnableCfgTransparent (arg : Word) (s : State) : Result := .next (simpleOp (.enableCfgTransparent arg) s)

/-- ENABLE_CFG_OFFLINE (R183): frame `C6 08 00`, class N, no flag effects. -/
def execEnableCfgOffline (arg : Word) (s : State) : Result := .next (simpleOp (.enableCfgOffline arg) s)

/-- RESET_CFG_ADDR (R184): frame `46 00 00 00`, class A; status 0 sets `cfg_pos`. -/
def execResetCfgAddr (arg : Word) (s : State) : Result := .next (simpleOp (.resetCfgAddr arg) s)

/-- RESET_UFM_ADDR (R185): frame `47 00 00 00`, class N; status 0 sets `ufm_pos`. -/
def execResetUfmAddr (arg : Word) (s : State) : Result := .next (simpleOp (.resetUfmAddr arg) s)

/-- SET_CFG_ADDR (R186): frame `B4 00 00 00 00 00 hh ll`, class A; RANGE check first; status 0 sets `cfg_pos`. -/
def execSetCfgAddr (page : Word) (s : State) : Result := .next (simpleOp (.setCfgAddr page) s)

/-- SET_UFM_ADDR (R187): frame `B4 00 00 00 40 00 hh ll`, class N; RANGE check first; status 0 sets `ufm_pos`. -/
def execSetUfmAddr (page : Word) (s : State) : Result := .next (simpleOp (.setUfmAddr page) s)

/-- PROGRAM_PAGE (R188): the caller's 20 bytes verbatim, class P, needs `cfg_pos = 1`. -/
def execProgramPage (arg : Word) (buf : Buf) (s : State) : Result := .next (simpleOp (.programPage arg buf) s)

/-- PROGRAM_DONE (R189): frame `5E 00 00 00`, class D. -/
def execProgramDone (arg : Word) (s : State) : Result := .next (simpleOp (.programDone arg) s)

/-- REFRESH (R190): frame `79 00 00`, class R; status 0 clears `cfg_pos` and `ufm_pos`. -/
def execRefresh (arg : Word) (s : State) : Result := .next (simpleOp (.refresh arg) s)

/-- WAKEUP (R191): frame `FF FF FF FF`, class N, no flag effects. -/
def execWakeup (arg : Word) (s : State) : Result := .next (simpleOp (.wakeup arg) s)

end Sys2Proof.Machine
end

