-- ==== Sys2Proof/Machine/Dispatch.lean ====
section
/-! DEFINITION. One arm per operation: `exec i s` is the next atomic step of operation `i` in state `s`. -/

namespace Sys2Proof.Machine

def exec (i : Instr) (s : State) : Host.Outcome State Fault Refusal :=
  match i with
  | .readId arg => Sys2Proof.Machine.execReadId arg s
  | .readUsercode arg => Sys2Proof.Machine.execReadUsercode arg s
  | .readStatus arg => Sys2Proof.Machine.execReadStatus arg s
  | .readFeatureBits arg => Sys2Proof.Machine.execReadFeatureBits arg s
  | .readFeatureRow arg => Sys2Proof.Machine.execReadFeatureRow arg s
  | .readOtp arg => Sys2Proof.Machine.execReadOtp arg s
  | .readFlash arg => Sys2Proof.Machine.execReadFlash arg s
  | .readUfm arg => Sys2Proof.Machine.execReadUfm arg s
  | .eraseUfm arg => Sys2Proof.Machine.execEraseUfm arg s
  | .erase flags => Sys2Proof.Machine.execErase flags s
  | .enableCfgTransparent arg => Sys2Proof.Machine.execEnableCfgTransparent arg s
  | .enableCfgOffline arg => Sys2Proof.Machine.execEnableCfgOffline arg s
  | .isBusy arg => Sys2Proof.Machine.execIsBusy arg s
  | .resetCfgAddr arg => Sys2Proof.Machine.execResetCfgAddr arg s
  | .resetUfmAddr arg => Sys2Proof.Machine.execResetUfmAddr arg s
  | .setCfgAddr page => Sys2Proof.Machine.execSetCfgAddr page s
  | .setUfmAddr page => Sys2Proof.Machine.execSetUfmAddr page s
  | .programPage arg buf => Sys2Proof.Machine.execProgramPage arg buf s
  | .programDone arg => Sys2Proof.Machine.execProgramDone arg s
  | .refresh arg => Sys2Proof.Machine.execRefresh arg s
  | .wakeup arg => Sys2Proof.Machine.execWakeup arg s
  | .waitBusy arg => Sys2Proof.Machine.execWaitBusy arg s
  | .loadHex arg => Sys2Proof.Machine.execLoadHex arg s

end Sys2Proof.Machine
end

