-- ==== Sys2Proof/Machine/Step.lean ====
section
/-! DEFINITION. One step of the machine: RST if it is asserted, else the operation that `seq` says, run by `exec`. -/

namespace Sys2Proof.Machine

/-- A step that is no reset: the fetched operation, a refusal of a reserved code (spec/60_exceptions.md R262), or a wait. -/
def stepBlock (s : State) : Host.Outcome State Fault Refusal :=
  match fetch s with
  | .run i t => exec i t
  | .illegal op t => .next (refuse op .illegalOp t)
  | .idle => .next s

/-- One atomic step (spec/00_scope.md R7; spec/40_sequencer.md R141). RST is a step of its own (spec/60_exceptions.md R272). -/
def step (s : State) : Host.Outcome State Fault Refusal :=
  if rstNow s then .next (rst (useRstSample s)) else stepBlock (useRstSample s)

/-- `s` with the operation of a table word as the next command on CMD, the block ready to take it and no reset at that step; a word that
is no operation changes nothing. Log 15. -/
def State.withFetchWord (s : State) (nbits w : Nat) : State :=
  match decodeTableWord nbits w with
  | some i => { s with seq := .ready, cmdIn := s.cmdIn.push (encode i), rstIn := s.rstIn.push false }
  | none => s

end Sys2Proof.Machine
end

