-- ==== Sys2Proof/Safety.lean ====
section
/-! DEFINITION. What claims about runs are stated in: the invariant of the reachable states (spec/10_state.md R45), runs of a given number of
steps, the frames sent, and what each rule of an operation says of its run. -/

namespace Sys2Proof.Machine

/-- The pairs (write count, read count) that a transaction has: the table of spec/20_memory.md R68. -/
def txSizes : List (Nat × Nat) :=
  [(4, 4), (4, 2), (4, 8), (4, 1), (4, 16), (4, 0), (3, 0), (8, 0), (20, 0)]

/-- The request moves as many bytes as it says, in one of the sizes of R68. -/
def Request.sized (q : Request) : Prop := q.w.length = q.wn.toNat ∧ (q.wn.toNat, q.rn.toNat) ∈ txSizes

/-- A transaction of the trace has a size of R68 and read as many bytes as it asked for (spec/00_scope.md R10). -/
def Event.sized : Event → Prop
  | .tx req _ r => req.sized ∧ r.length = req.rn.toNat
  | .rsp _ => True
  | .an _ => True

/-- The registers `fb`, `wn`, `rn` hold the frame of operation `i` (spec/10_state.md R23). -/
def Holds (i : Instr) (s : State) : Prop :=
  s.fb.toList.take s.wn.toNat = frameBytes i ∧ s.wn.toNat = (frameBytes i).length ∧ s.rn = readLen i

/-- What `seq` says of the operation in flight and of the pending request (spec/10_state.md R21). -/
def PendingOk (s : State) : Prop :=
  match s.seq with
  | .ready => True
  | .xact => ∃ i, inFlight s = .ok i ∧ i.isWire = true ∧ Holds i s
  | .poll => s.curOp = 21 ∧ Holds (.isBusy 0) s
  | .lhReset => s.curOp = 22 ∧ Holds (.resetCfgAddr 0) s
  | .lhStream | .lhFlush => s.curOp = 22

/-- The invariant of the reachable states: spec/10_state.md R45 (b) and (d), a `cur_op` that is defined (R22), the pending request of the
operation in flight, and the sizes of R68 for every transaction made. -/
def Inv (s : State) : Prop :=
  s.cnt.toNat ≤ 15 ∧ (s.recOvf = true → s.recFull = true) ∧ s.curOp.toNat ≤ 22 ∧ PendingOk s ∧ ∀ e ∈ s.trace, e.sized

/-- The state after `k` steps, if none of them stops. -/
def stepsTo : Nat → State → Option State
  | 0, s => some s
  | k + 1, s =>
    match step s with
    | .next t => stepsTo k t
    | .fault _ => none
    | .refused _ => none

/-- The agent presents exactly `items` next, in this order, and has `left` to present after them. -/
def Supply.Gives {α : Type} (draw : Nat → Nat → α) : Supply α → List α → Supply α → Prop
  | q, [], left => q = left
  | q, x :: items, left => ∃ q', q.pop draw = some (x, q') ∧ Gives draw q' items left

/-- The bytes a transaction wrote, for the events that are transactions. -/
def Event.written : Event → Option (List Byte)
  | .tx req _ _ => some req.w
  | .rsp _ => none
  | .an _ => none

/-- The frames that were sent, oldest first: the sequence that spec/60_exceptions.md R281 calls the trace. -/
def framesSent (s : State) : List (List Byte) := s.trace.filterMap Event.written

/-- The two hex characters of a byte in upper case, high nibble first (spec/20_memory.md R66, spec/30_encoding.md R106). -/
def hexChar (n : BitVec 4) : Byte := if n.toNat < 10 then 0x30 + n.setWidth 8 else 0x37 + n.setWidth 8

/-- The characters of a list of bytes, as a hex stream holds them. -/
def hexChars : List Byte → List Token
  | [] => []
  | b :: bs => .char (hexChar (b.extractLsb' 4 4)) :: .char (hexChar (b.extractLsb' 0 4)) :: hexChars bs

/-- The tokens of a stream: a first record, then separators each followed by a record (spec/44_hex_loader.md R241). -/
def streamOf (first : List Byte) : List (Byte × List Byte) → List Token
  | [] => first.map .char
  | (sep, next) :: later => first.map .char ++ .char sep :: streamOf next later

/-- Digits paired by adjacency, first digit high; a dangling digit makes no byte (spec/44_hex_loader.md R239; spec/20_memory.md R66). -/
def pairDigits : List (BitVec 4) → List Byte
  | [] => []
  | [_] => []
  | hi :: lo :: digits => (hi ++ lo) :: pairDigits digits

/-- The bytes that a record decodes. -/
def recordBytes (r : List Byte) : List Byte := pairDigits (r.filterMap hexValue)

/-- The full pages of a record's bytes: the `j`-th is bytes `16 j` to `16 j + 15` (spec/44_hex_loader.md R241). -/
def pagesOf (bs : List Byte) : List (List Byte) := (List.range (bs.length / 16)).map (fun j => (bs.drop (16 * j)).take 16)

/-! ### What a simple operation does, as its rule gives it -/

/-- What is particular to a simple operation when it is accepted: its op select code, its operand word, its frame, its read length, and
whether it is out of order. -/
structure SimpleRun where
  op         : BitVec 5
  arg        : Word
  frame      : List Byte
  rn         : BitVec 5
  outOfOrder : Bool
  deriving DecidableEq, Repr

/-- The shadow state that the operation's frame leaves when its transaction returns status 0. -/
structure Shadow where
  life      : Life
  cfgPos    : Bool
  ufmPos    : Bool
  erasePend : Bool
  deriving DecidableEq, Repr

/-- The shadow state of `s`, for an operation with no flag effects and no lifecycle move. -/
def shadowOf (s : State) : Shadow :=
  { life := s.life, cfgPos := s.cfgPos, ufmPos := s.ufmPos, erasePend := s.erasePend }

/-- The operation was accepted: its frame is pending, everything not named keeps its value (spec/40_sequencer.md R130). -/
def accepted (q : SimpleRun) (s : State) : State :=
  { s with
    seq := .xact
    curOp := q.op
    curArg := q.arg
    stAcc := 0
    seqViol := s.seqViol || q.outOfOrder
    fb := overlay q.frame (Config.fbTail s.draws)
    wn := BitVec.ofNat 5 q.frame.length
    rn := q.rn
    draws := s.draws + 1 }

/-- The operation was refused for ORDER: only `r_*` and `seq_viol` change (spec/60_exceptions.md R264, R273). -/
def refusedOrder (op : BitVec 5) (s : State) : State :=
  { s with
    seqViol := true
    r := { op := op, err := .order }
    trace := s.trace ++ [.rsp { op := op, err := .order }] }

/-- The response of a simple operation (spec/40_sequencer.md R137). -/
def simpleResponse (q : SimpleRun) (busy : Bool) (a : Answer) : Response :=
  { op := q.op, status := a.status, len := q.rn, data := dataField q.rn a.bytes, busy := busy }

/-- The accepted operation has run to its end: one transaction, one response; the shadow state is `sh` on status 0 and unmoved otherwise;
everything not named keeps its value (spec/40_sequencer.md R135 to R137). -/
def completed (q : SimpleRun) (sh : Shadow) (busy : Bool) (a : Answer) (rest : Supply Answer) (s : State) : State :=
  { accepted q s with
    seq := .ready
    stAcc := a.status
    xfail := s.xfail || a.status != 0
    life := if a.status = 0 then sh.life else s.life
    cfgPos := if a.status = 0 then sh.cfgPos else s.cfgPos
    ufmPos := if a.status = 0 then sh.ufmPos else s.ufmPos
    erasePend := if a.status = 0 then sh.erasePend else s.erasePend
    r := simpleResponse q busy a
    txIn := rest
    trace := s.trace ++
      [.tx { w := q.frame, wn := BitVec.ofNat 5 q.frame.length, rn := q.rn } a.status (a.bytes.toList.take q.rn.toNat),
       .rsp (simpleResponse q busy a)] }

/-- Operation `i`, issued in READY, runs as `q` says: with `HARDEN = 1` it is refused when it is out of order; otherwise it is accepted, and
with an answer of the transport it completes, leaving the shadow state `sh` on status 0 (spec/40_sequencer.md R140). -/
def RunsAs (i : Instr) (q : SimpleRun) (sh : Answer → Shadow) (busy : Answer → Bool) (s : State) : Prop :=
  s.seq = .ready →
    (q.outOfOrder = true ∧ s.params.harden = true → exec i s = .next (refusedOrder q.op s)) ∧
    (q.outOfOrder = false ∨ s.params.harden = false →
      exec i s = .next (accepted q s) ∧
      ∀ a rest, s.txIn.pop freeAnswer = some (a, rest) → exec i (accepted q s) = .next (completed q (sh a) (busy a) a rest s))

/-- A frame of class A is out of order in these lifecycle states (spec/42_write_ops.md R184). -/
def addrOutOfOrder (s : State) : Bool := s.erasePend || s.life == .programming || s.life == .finalizing

/-- Where an in-order frame of class A takes `life` (spec/42_write_ops.md R184). -/
def addrLife (s : State) : Life :=
  if addrOutOfOrder s then s.life
  else if s.life == .erasing || s.life == .addrReset2 then .addrReset2 else .addrReset1

/-- A page is in order in ADDR_RESET_2 and PROGRAMMING, with the configuration pointer positioned and no erase pending
(spec/42_write_ops.md R188). -/
def pageOutOfOrder (s : State) : Bool :=
  s.erasePend || !s.cfgPos || !(s.life == .addrReset2 || s.life == .programming)

/-- The latch of the first failure (spec/10_state.md R24). -/
def latched (a : Answer) (s : State) : Word := if s.stAcc = 0 then a.status else s.stAcc

/-- `s` and `s'` agree but for bits that the spec leaves unspecified and that no rule reads (spec/10_state.md R23, R34, R45 c;
spec/70_reset_and_hazards.md R301): `fb` beyond the pending frame, the payload bytes that the current page has not stored yet, `hi_nib`
while no digit is held. -/
def AgreeOnSpecified (s s' : State) : Prop :=
  s' = { s with fb := s'.fb, pbPayload := s'.pbPayload, hiNib := s'.hiNib } ∧
  (s.seq = .xact ∨ s.seq = .poll ∨ s.seq = .lhReset → s'.fb.toList.take s.wn.toNat = s.fb.toList.take s.wn.toNat) ∧
  (s.haveHi = true → s'.hiNib = s.hiNib) ∧
  (s.seq = .lhReset ∨ s.seq = .lhStream → s'.pbPayload.toList.take s.cnt.toNat = s.pbPayload.toList.take s.cnt.toNat) ∧
  (s.seq = .lhFlush → s'.pbPayload = s.pbPayload)

end Sys2Proof.Machine
end

