-- ==== Sys2Proof/Certificates/Slice0/Obligations.lean ====
section
/-! DEFINITION. The statements for the provers. Where a statement gives the whole next state as a record update of `s`, everything the update does
not name is unchanged: that equation is the frame as well as the result. A rule that carries a decision `D<n>` of
spec/92_eei_decisions.md is the spec's own choice where its source is silent, and is stated here as the spec's rule; a statement that rests on
a choice of the model names its log entry. -/

open Sys2Proof Sys2Proof.Machine

/-! ### Encodings -/

/-- Frames written out from spec/30_encoding.md R91 and R93 to R97, and op select codes from R100, numbered as R108 numbers them, decode to the
operations they stand for. Two things are what the model chose and no rule says: that the bits of `arg` no frame carries decode as 0, as in
`readId 0` (log 16, DESIGN CHOICE), and that an 8-bit word is read as an op select code, which gives WAIT_BUSY and LOAD_HEX their words (log 15,
DESIGN CHOICE). -/
def Obligations.SpecWordsDecode : Prop :=
  decodeTableWord 32 0xE0000000 = some (.readId 0) ∧
  decodeTableWord 32 0x0E0C0000 = some (.erase 0x000C0000) ∧
  decodeTableWord 24 0x740800 = some (.enableCfgTransparent 0) ∧
  decodeTableWord 32 0xF0000000 = some (.isBusy 0) ∧
  decodeTableWord 64 0xB400000000000123 = some (.setCfgAddr 0x123) ∧
  decodeTableWord 64 0xB400000040000123 = some (.setUfmAddr 0x123) ∧
  decodeTableWord 160 0x70000000000102030405060708090A0B0C0D0E0F =
    some (.programPage 0 #v[0x70, 0, 0, 0, 0, 1, 2, 3, 4, 5, 6, 7, 8, 9, 10, 11, 12, 13, 14, 15]) ∧
  decodeTableWord 32 0xFFFFFFFF = some (.wakeup 0) ∧
  decodeTableWord 8 0b10101 = some (.waitBusy 0) ∧
  decodeTableWord 8 0b10110 = some (.loadHex 0)

/-- spec/30_encoding.md R100: selecting an operation on CMD and decoding the command agree, and a command that decodes is selected by its own
`op` and `arg`. -/
def Obligations.CommandRoundTrip : Prop :=
  (∀ i : Instr, decode (encode i) = .ok i) ∧
  ∀ (c : Cmd) (i : Instr), decode c = .ok i → (encode i).op = c.op ∧ (encode i).arg = c.arg

/-- spec/30_encoding.md R91, R93 to R97, R108: for every wire command with well-formed operands that its frame carries, decoding the frame gives
the command back, whatever bytes follow. The two premises on operands are the model's choices of log 16 and log 17. -/
def Obligations.FrameRoundTrip : Prop :=
  ∀ (pp : BitVec 24) (i : Instr) (rest : List Byte),
    i.isWire = true → i.wellFormed pp = true → i.argCarried = true → decodeFrame pp (encodeFrame i ++ rest) = .ok (i, rest)

/-- spec/30_encoding.md R99, R108: bytes that decode are the frame of the wire command they decode to, followed by the rest, so no reserved encoding
falls to a neighbour. Two conjuncts say what the model chose and no rule says: `argCarried`, that the bits of `arg` no frame carries decode as 0
(log 16, DESIGN CHOICE), and `wellFormed pp` for a page frame, that it decodes only with the prefix of PP_OPERAND (log 17, DEDUCED). -/
def Obligations.DecodedFrameIsItsEncoding : Prop :=
  ∀ (pp : BitVec 24) (bs : List Byte) (i : Instr) (rest : List Byte), decodeFrame pp bs = .ok (i, rest) →
    bs = encodeFrame i ++ rest ∧ i.isWire = true ∧ i.wellFormed pp = true ∧ i.argCarried = true

/-- spec/30_encoding.md R99, R109, R110: the frame of a wire command has the length of its row, whatever its operands, and a decoder of the wire
reads that length off the first byte. -/
def Obligations.FrameLengthFromFirstByte : Prop :=
  ∀ i : Instr, i.isWire = true →
    (encodeFrame i).length =
      (if opsel i ∈ [10, 11, 19] then 3 else if opsel i ∈ [15, 16] then 8 else if opsel i = 17 then 20 else 4) ∧
    ∀ pp, i.wellFormed pp = true → ∃ b tl, encodeFrame i = b :: tl ∧ frameLen b = some (encodeFrame i).length

/-- spec/30_encoding.md R93, R102: the erase operand is flag bits 19:16 in bits 3:0 of frame byte 1, its bits 7:4 are 0, the rest of the frame
is fixed, and the other flag bits have no effect on the frame. -/
def Obligations.EraseFrameTakesFlagBits : Prop :=
  (∀ flags : Word, ∃ ff : Byte, encodeFrame (.erase flags) = [0x0E, ff, 0x00, 0x00] ∧
    ∀ k, ff.getLsbD k = (decide (k < 4) && flags.getLsbD (16 + k))) ∧
  ∀ flags flags' : Word, (∀ k, k < 4 → flags.getLsbD (16 + k) = flags'.getLsbD (16 + k)) →
    encodeFrame (.erase flags) = encodeFrame (.erase flags')

/-- spec/30_encoding.md R94, R95: the two set-address frames hold the low 16 bits of `arg` big-endian in bytes 6 and 7, unscaled, and for one page
number they differ in byte 4 alone, 0x00 against 0x40. -/
def Obligations.SetAddressFrames : Prop :=
  ∀ page : Word, ∃ hh ll : Byte,
    encodeFrame (.setCfgAddr page) = [0xB4, 0x00, 0x00, 0x00, 0x00, 0x00, hh, ll] ∧
    encodeFrame (.setUfmAddr page) = [0xB4, 0x00, 0x00, 0x00, 0x40, 0x00, hh, ll] ∧
    hh.toNat * 256 + ll.toNat = page.toNat % 0x10000

/-- spec/30_encoding.md R106: the class and the value of every character. -/
def Obligations.HexCharacterValues : Prop :=
  ∀ c : Byte,
    (0x30 ≤ c.toNat ∧ c.toNat ≤ 0x39 → ∃ v, hexValue c = some v ∧ v.toNat = c.toNat - 0x30) ∧
    (0x41 ≤ c.toNat ∧ c.toNat ≤ 0x46 → ∃ v, hexValue c = some v ∧ v.toNat = c.toNat - 0x41 + 10) ∧
    (0x61 ≤ c.toNat ∧ c.toNat ≤ 0x66 → ∃ v, hexValue c = some v ∧ v.toNat = c.toNat - 0x61 + 10) ∧
    (¬ (0x30 ≤ c.toNat ∧ c.toNat ≤ 0x39) ∧ ¬ (0x41 ≤ c.toNat ∧ c.toNat ≤ 0x46) ∧ ¬ (0x61 ≤ c.toNat ∧ c.toNat ≤ 0x66) →
      hexValue c = none)

/-! ### Simple operations: what each does, when it is refused, and what it leaves alone -/

/-- spec/41_read_ops.md R160 to R165. READ_ID, READ_USERCODE, READ_STATUS, READ_FEATURE_BITS, READ_FEATURE_ROW and READ_OTP: the frame, the read
length, the raw response bytes; out of order only while `erase_pend = 1`; no shadow flag and no lifecycle move. -/
def Obligations.PlainReadsRun : Prop :=
  ∀ (s : State) (arg : Word),
    RunsAs (.readId arg) ⟨0, arg, [0xE0, 0, 0, 0], 4, s.erasePend⟩ (fun _ => shadowOf s) (fun _ => false) s ∧
    RunsAs (.readUsercode arg) ⟨1, arg, [0xC0, 0, 0, 0], 4, s.erasePend⟩ (fun _ => shadowOf s) (fun _ => false) s ∧
    RunsAs (.readStatus arg) ⟨2, arg, [0x3C, 0, 0, 0], 4, s.erasePend⟩ (fun _ => shadowOf s) (fun _ => false) s ∧
    RunsAs (.readFeatureBits arg) ⟨3, arg, [0xFB, 0, 0, 0], 2, s.erasePend⟩ (fun _ => shadowOf s) (fun _ => false) s ∧
    RunsAs (.readFeatureRow arg) ⟨4, arg, [0xE7, 0, 0, 0], 8, s.erasePend⟩ (fun _ => shadowOf s) (fun _ => false) s ∧
    RunsAs (.readOtp arg) ⟨5, arg, [0xFA, 0, 0, 0], 1, s.erasePend⟩ (fun _ => shadowOf s) (fun _ => false) s

/-- spec/41_read_ops.md R166, R167. READ_FLASH and READ_UFM: out of order while an erase is pending or while their own pointer is not
positioned. -/
def Obligations.PointerReadsRun : Prop :=
  ∀ (s : State) (arg : Word),
    RunsAs (.readFlash arg) ⟨6, arg, [0x73, 0, 0, 0], 16, s.erasePend || !s.cfgPos⟩ (fun _ => shadowOf s) (fun _ => false) s ∧
    RunsAs (.readUfm arg) ⟨7, arg, [0xCA, 0, 0, 0], 16, s.erasePend || !s.ufmPos⟩ (fun _ => shadowOf s) (fun _ => false) s

/-- spec/42_write_ops.md R180, R181. ERASE_UFM and ERASE: status 0 sets `erase_pend`, out of order or not; ERASE with the configuration-flash bit
is in order only in ADDR_RESET_1 and then moves `life` to ERASING. -/
def Obligations.ErasesRun : Prop :=
  ∀ (s : State) (arg flags : Word),
    RunsAs (.eraseUfm arg) ⟨8, arg, [0xCB, 0, 0, 0], 0, s.erasePend⟩ (fun _ => { shadowOf s with erasePend := true })
      (fun _ => false) s ∧
    RunsAs (.erase flags)
      ⟨9, flags, [0x0E, ((flags >>> 16) &&& 0x0F).setWidth 8, 0, 0], 0,
        s.erasePend || (flags.getLsbD 18 && s.life != .addrReset1)⟩
      (fun _ => { shadowOf s with
        erasePend := true
        life := if flags.getLsbD 18 = true ∧ s.erasePend = false ∧ s.life = .addrReset1 then .erasing else s.life })
      (fun _ => false) s

/-- spec/42_write_ops.md R182, R183, R191. ENABLE_CFG_TRANSPARENT, ENABLE_CFG_OFFLINE and WAKEUP: a frame and nothing else. -/
def Obligations.ModeAndWakeupWritesRun : Prop :=
  ∀ (s : State) (arg : Word),
    RunsAs (.enableCfgTransparent arg) ⟨10, arg, [0x74, 0x08, 0], 0, s.erasePend⟩ (fun _ => shadowOf s) (fun _ => false) s ∧
    RunsAs (.enableCfgOffline arg) ⟨11, arg, [0xC6, 0x08, 0], 0, s.erasePend⟩ (fun _ => shadowOf s) (fun _ => false) s ∧
    RunsAs (.wakeup arg) ⟨20, arg, [0xFF, 0xFF, 0xFF, 0xFF], 0, s.erasePend⟩ (fun _ => shadowOf s) (fun _ => false) s

/-- spec/42_write_ops.md R184, R186. RESET_CFG_ADDR, and SET_CFG_ADDR with a page that fits or under TRUNCATE: status 0 sets `cfg_pos`, and in
order the class A move is made; any other page is refused with RANGE, whatever the order. -/
def Obligations.CfgAddressWritesRun : Prop :=
  ∀ (s : State) (arg page : Word),
    RunsAs (.resetCfgAddr arg) ⟨13, arg, [0x46, 0, 0, 0], 0, addrOutOfOrder s⟩
      (fun _ => { shadowOf s with cfgPos := true, life := addrLife s }) (fun _ => false) s ∧
    (page.toNat < 0x10000 ∨ s.params.pageOor = .truncate →
      RunsAs (.setCfgAddr page)
        ⟨15, page, [0xB4, 0, 0, 0, 0x00, 0, page.extractLsb' 8 8, page.extractLsb' 0 8], 0, addrOutOfOrder s⟩
        (fun _ => { shadowOf s with cfgPos := true, life := addrLife s }) (fun _ => false) s) ∧
    (s.seq = .ready → 0x10000 ≤ page.toNat → s.params.pageOor = .refuse →
      exec (.setCfgAddr page) s =
        .next { s with r := { op := 15, err := .range }, trace := s.trace ++ [.rsp { op := 15, err := .range }] })

/-- spec/42_write_ops.md R185, R187. RESET_UFM_ADDR, and SET_UFM_ADDR with a page that fits or under TRUNCATE: status 0 sets `ufm_pos`; `life` and
`cfg_pos` stay; any other page is refused with RANGE, whatever the order. -/
def Obligations.UfmAddressWritesRun : Prop :=
  ∀ (s : State) (arg page : Word),
    RunsAs (.resetUfmAddr arg) ⟨14, arg, [0x47, 0, 0, 0], 0, s.erasePend⟩
      (fun _ => { shadowOf s with ufmPos := true }) (fun _ => false) s ∧
    (page.toNat < 0x10000 ∨ s.params.pageOor = .truncate →
      RunsAs (.setUfmAddr page)
        ⟨16, page, [0xB4, 0, 0, 0, 0x40, 0, page.extractLsb' 8 8, page.extractLsb' 0 8], 0, s.erasePend⟩
        (fun _ => { shadowOf s with ufmPos := true }) (fun _ => false) s) ∧
    (s.seq = .ready → 0x10000 ≤ page.toNat → s.params.pageOor = .refuse →
      exec (.setUfmAddr page) s =
        .next { s with r := { op := 16, err := .range }, trace := s.trace ++ [.rsp { op := 16, err := .range }] })

/-- spec/42_write_ops.md R188. PROGRAM_PAGE sends the caller's 20 bytes, whatever they are; in order it moves `life` to PROGRAMMING; the loader's
registers stay. -/
def Obligations.ProgramPageRuns : Prop :=
  ∀ (s : State) (arg : Word) (buf : Buf),
    RunsAs (.programPage arg buf) ⟨17, arg, buf.toList, 0, pageOutOfOrder s⟩
      (fun _ => { shadowOf s with life := if pageOutOfOrder s then s.life else .programming }) (fun _ => false) s

/-- spec/42_write_ops.md R189, R190. PROGRAM_DONE is in order only in PROGRAMMING, REFRESH only in FINALIZING; a REFRESH that was sent clears both
pointer flags, in order or not. -/
def Obligations.FinalizeWritesRun : Prop :=
  ∀ (s : State) (arg : Word),
    RunsAs (.programDone arg) ⟨18, arg, [0x5E, 0, 0, 0], 0, s.erasePend || s.life != .programming⟩
      (fun _ => { shadowOf s with
        life := if s.erasePend = false ∧ s.life = .programming then .finalizing else s.life }) (fun _ => false) s ∧
    RunsAs (.refresh arg) ⟨19, arg, [0x79, 0, 0], 0, s.erasePend || s.life != .finalizing⟩
      (fun _ =>
        { life := if s.erasePend = false ∧ s.life = .finalizing then .activated else s.life
          cfgPos := false
          ufmPos := false
          erasePend := s.erasePend })
      (fun _ => false) s

/-- spec/43_busy_wait.md R210. IS_BUSY is always in order; `r_busy` is bit 7 of the byte read; a ready poll with status 0 clears
`erase_pend`. -/
def Obligations.IsBusyRuns : Prop :=
  ∀ (s : State) (arg : Word),
    RunsAs (.isBusy arg) ⟨12, arg, [0xF0, 0, 0, 0], 1, false⟩
      (fun a => { shadowOf s with erasePend := s.erasePend && a.bytes[0].getLsbD 7 }) (fun a => a.bytes[0].getLsbD 7) s

/-- spec/60_exceptions.md R263 (spec/30_encoding.md R103, spec/40_sequencer.md R131). A page number of 2^16 or more under REFUSE is refused with
RANGE before the order is judged: nothing is sent, `seq_viol` and everything but the response stay. Under TRUNCATE no step answers RANGE. -/
def Obligations.PageOutOfRangeRefused : Prop :=
  (∀ (s : State) (page : Word), s.seq = .ready → 0x10000 ≤ page.toNat → s.params.pageOor = .refuse →
    exec (.setCfgAddr page) s =
      .next { s with r := { op := 15, err := .range }, trace := s.trace ++ [.rsp { op := 15, err := .range }] } ∧
    exec (.setUfmAddr page) s =
      .next { s with r := { op := 16, err := .range }, trace := s.trace ++ [.rsp { op := 16, err := .range }] }) ∧
  ∀ s t : State, s.params.pageOor = .truncate → step s = .next t → t.r.err = .range → t.r = s.r

/-- spec/30_encoding.md R101, spec/60_exceptions.md R262. A command with a reserved code is taken and refused with ILLEGAL_OP; nothing but the
response registers changes. -/
def Obligations.ReservedOpRefused : Prop :=
  ∀ (s : State) (c : Cmd) (rest : Supply Cmd), rstNow s = false → s.seq = .ready → s.cmdIn.pop freeCmd = some (c, rest) → 23 ≤ c.op.toNat →
    step s =
      .next { s with
        cmdIn := rest
        rstIn := s.rstIn.rest Config.freeRst
        r := { op := c.op, err := .illegalOp }
        trace := s.trace ++ [.rsp { op := c.op, err := .illegalOp }] }

/-! ### The busy wait -/

/-- spec/43_busy_wait.md R211. WAIT_BUSY is accepted in READY whatever the shadow state and `HARDEN`; the IS_BUSY frame is pending. -/
def Obligations.WaitBusyAccepted : Prop :=
  ∀ (s : State) (arg : Word), s.seq = .ready →
    exec (.waitBusy arg) s =
      .next { s with
        seq := .poll
        curOp := 21
        curArg := arg
        stAcc := 0
        pollCnt := 0
        fb := overlay [0xF0, 0, 0, 0] (Config.fbTail s.draws)
        wn := 4
        rn := 1
        draws := s.draws + 1 }

/-- spec/43_busy_wait.md R212. One poll: the transaction is recorded; bit 7 clear ends the operation and, on status 0, clears `erase_pend`; bit 7
set counts, and ends with TIMEOUT at the limit or polls again with the same frame. -/
def Obligations.PollStep : Prop :=
  ∀ (s : State) (arg : Word) (a : Answer) (rest : Supply Answer), s.seq = .poll → s.txIn.pop freeAnswer = some (a, rest) →
    let cnt' := if s.pollCnt = 0xFFFFFFFF then s.pollCnt else s.pollCnt + 1
    let d : Payload := ((Vector.replicate 16 (0 : Byte)).set 0 a.bytes[0])
    let tx : Event := .tx (request s) a.status (a.bytes.toList.take s.rn.toNat)
    (a.bytes[0].getLsbD 7 = false →
      let resp : Response := { op := 21, status := latched a s, len := 1, data := d, busy := false, count := s.pollCnt }
      exec (.waitBusy arg) s =
        .next { s with
          seq := .ready, txIn := rest, stAcc := latched a s, xfail := s.xfail || a.status != 0
          erasePend := s.erasePend && a.status != 0, r := resp, trace := s.trace ++ [tx, .rsp resp] }) ∧
    (a.bytes[0].getLsbD 7 = true → s.params.pollLimit ≠ 0 ∧ s.params.pollLimit.toNat ≤ cnt'.toNat →
      let resp : Response :=
        { op := 21, err := .timeout, status := latched a s, len := 1, data := d, busy := true, count := cnt' }
      exec (.waitBusy arg) s =
        .next { s with
          seq := .ready, txIn := rest, stAcc := latched a s, xfail := s.xfail || a.status != 0, pollCnt := cnt'
          r := resp, trace := s.trace ++ [tx, .rsp resp] }) ∧
    (a.bytes[0].getLsbD 7 = true → s.params.pollLimit = 0 ∨ cnt'.toNat < s.params.pollLimit.toNat →
      exec (.waitBusy arg) s =
        .next { s with
          txIn := rest, stAcc := latched a s, xfail := s.xfail || a.status != 0, pollCnt := cnt'
          trace := s.trace ++ [tx] })

/-- spec/43_busy_wait.md R213, spec/10_state.md R24. A WAIT_BUSY that meets `n` busy polls and then a ready one, below the limit if there is one, makes
`n + 1` transactions with the IS_BUSY frame and reports the count `n` and the first non-zero status. -/
def Obligations.WaitBusyCountsBusyPolls : Prop :=
  ∀ (s : State) (c : Cmd) (rest : Supply Cmd) (busy : List Answer) (rdy : Answer) (more : Supply Answer),
    s.seq = .ready → s.rstIn = {} → s.cmdIn.pop freeCmd = some (c, rest) → c.op = 21 → s.txIn.Gives freeAnswer (busy ++ [rdy]) more →
    (∀ a ∈ busy, a.bytes[0].getLsbD 7 = true) → rdy.bytes[0].getLsbD 7 = false → busy.length < 2 ^ 32 →
    (s.params.pollLimit = 0 ∨ busy.length < s.params.pollLimit.toNat) →
    ∃ t, stepsTo (busy.length + 2) s = some t ∧ t.seq = .ready ∧ t.r.op = 21 ∧ t.r.err = .ok ∧ t.r.count.toNat = busy.length ∧
      t.r.busy = false ∧ t.r.status = (((busy ++ [rdy]).map Answer.status).find? (· != 0)).getD 0 ∧
      framesSent t = framesSent s ++ List.replicate (busy.length + 1) [0xF0, 0, 0, 0] ∧ t.txIn = more ∧ t.cmdIn = rest

/-- spec/43_busy_wait.md R214, spec/60_exceptions.md R265. With `POLL_LIMIT = n > 0`, `n` busy polls in a row end WAIT_BUSY with TIMEOUT after exactly
`n` transactions; `erase_pend` and `life` keep their values. -/
def Obligations.WaitBusyTimesOutAtLimit : Prop :=
  ∀ (s : State) (c : Cmd) (rest : Supply Cmd) (busy : List Answer) (more : Supply Answer),
    s.seq = .ready → s.rstIn = {} → s.cmdIn.pop freeCmd = some (c, rest) → c.op = 21 → s.txIn.Gives freeAnswer busy more →
    (∀ a ∈ busy, a.bytes[0].getLsbD 7 = true) → s.params.pollLimit ≠ 0 → busy.length = s.params.pollLimit.toNat →
    ∃ t, stepsTo (busy.length + 1) s = some t ∧ t.seq = .ready ∧ t.r.op = 21 ∧ t.r.err = .timeout ∧
      t.r.count = s.params.pollLimit ∧ t.r.busy = true ∧
      framesSent t = framesSent s ++ List.replicate busy.length [0xF0, 0, 0, 0] ∧ t.txIn = more ∧
      t.erasePend = s.erasePend ∧ t.life = s.life

/-- spec/43_busy_wait.md R215. With `POLL_LIMIT = 0` a WAIT_BUSY whose polls have all shown busy is still polling, however many there were: it has
given no response and taken no other command. -/
def Obligations.WaitBusyHangsWhileBusy : Prop :=
  ∀ (s : State) (c : Cmd) (rest : Supply Cmd) (busy : List Answer) (more : Supply Answer),
    s.seq = .ready → s.rstIn = {} → s.cmdIn.pop freeCmd = some (c, rest) → c.op = 21 → s.txIn.Gives freeAnswer busy more →
    (∀ a ∈ busy, a.bytes[0].getLsbD 7 = true) → s.params.pollLimit = 0 →
    ∃ t, stepsTo (busy.length + 1) s = some t ∧ t.seq = .poll ∧ t.r = s.r ∧ t.cmdIn = rest ∧
      framesSent t = framesSent s ++ List.replicate busy.length [0xF0, 0, 0, 0]

/-- spec/43_busy_wait.md R215. With `POLL_LIMIT = 0`: WAIT_BUSY ends if and only if some poll byte has bit 7 clear; a run of poll steps that
never ends is a run of the machine, though the transport answers every poll; and in POLL no command is accepted. -/
def Obligations.WaitBusyEndsOnlyOnReadyPoll : Prop :=
  (∀ (s : State) (c : Cmd) (rest : Supply Cmd),
    s.seq = .ready → s.rstIn = {} → s.cmdIn.pop freeCmd = some (c, rest) → c.op = 21 → s.params.pollLimit = 0 →
    ((∃ k t, stepsTo (k + 1) s = some t ∧ t.seq = .ready) ↔
      ∃ answers more, s.txIn.Gives freeAnswer answers more ∧ ∃ a ∈ answers, a.bytes[0].getLsbD 7 = false)) ∧
  (∃ (s : State) (c : Cmd) (rest : Supply Cmd),
    s.seq = .ready ∧ s.rstIn = {} ∧ s.cmdIn.pop freeCmd = some (c, rest) ∧ c.op = 21 ∧ s.params.pollLimit = 0 ∧
    ∀ n, ∃ t, stepsTo (n + 1) s = some t ∧ t.seq = .poll ∧ t.r = s.r ∧ t.cmdIn = rest ∧
      framesSent t = framesSent s ++ List.replicate n [0xF0, 0, 0, 0]) ∧
  ∀ s t : State, rstNow s = false → s.seq = .poll → step s = .next t → t.cmdIn = s.cmdIn

/-! ### The hex stream loader -/

/-- spec/44_hex_loader.md R230, spec/40_sequencer.md R130, R132. LOAD_HEX is in order when no erase is pending and `life` is ERASING or ADDR_RESET_2;
out of order it is refused with `HARDEN = 1`; accepted, it clears the loader's registers and its RESET_CFG_ADDR frame is pending. -/
def Obligations.LoadHexAccepted : Prop :=
  ∀ (s : State) (arg : Word), s.seq = .ready →
    let v := s.erasePend || !(s.life == .erasing || s.life == .addrReset2)
    (v = true ∧ s.params.harden = true → exec (.loadHex arg) s = .next (refusedOrder 22 s)) ∧
    (v = false ∨ s.params.harden = false →
      exec (.loadHex arg) s =
        .next { s with
          seq := .lhReset
          curOp := 22
          curArg := arg
          stAcc := 0
          seqViol := s.seqViol || v
          cnt := 0, haveHi := false, recFull := false, recOvf := false, pages := 0, nOdd := 0, nOvf := 0
          fb := overlay [0x46, 0, 0, 0] (Config.fbTail s.draws)
          wn := 4
          rn := 0
          draws := s.draws + 1 })

/-- spec/44_hex_loader.md R231. The pointer reset of LOAD_HEX returns: on status 0 `cfg_pos` is set and, in order, the class A move is made; the stream
comes next whatever the status. -/
def Obligations.LoadHexPointerResetReturns : Prop :=
  ∀ (s : State) (arg : Word) (a : Answer) (rest : Supply Answer), s.seq = .lhReset → s.txIn.pop freeAnswer = some (a, rest) →
    exec (.loadHex arg) s =
      .next { s with
        seq := .lhStream
        txIn := rest
        stAcc := latched a s
        xfail := s.xfail || a.status != 0
        cfgPos := if a.status = 0 then true else s.cfgPos
        life := if a.status = 0 then addrLife s else s.life
        trace := s.trace ++ [.tx (request s) a.status (a.bytes.toList.take s.rn.toNat)] }

/-- spec/44_hex_loader.md R232. The first digit of a pair is held, and nothing else changes. -/
def Obligations.FirstDigitHeld : Prop :=
  ∀ (s : State) (arg : Word) (c : Byte) (v : BitVec 4) (rest : Supply Token),
    s.seq = .lhStream → s.hsIn.pop freeToken = some (.char c, rest) → hexValue c = some v → s.haveHi = false →
    exec (.loadHex arg) s = .next { s with hsIn := rest, hiNib := v, haveHi := true }

/-- spec/44_hex_loader.md R233, R234, R238. The second digit stores the byte at `pb[4 + cnt]`; the first byte of a record after a flush is reported as an
overflow, once; the sixteenth byte of a page makes the page transaction pending, flagged if it is out of order. -/
def Obligations.SecondDigitStoresByte : Prop :=
  ∀ (s : State) (arg : Word) (c : Byte) (v : BitVec 4) (rest : Supply Token) (h : s.cnt.toNat < 16),
    s.seq = .lhStream → s.hsIn.pop freeToken = some (.char c, rest) → hexValue c = some v → s.haveHi = true →
    let ovf := s.recFull && !s.recOvf
    let stored : State :=
      { s with
        hsIn := rest
        haveHi := false
        trace := s.trace ++ (if ovf then [.an .overflow] else [])
        nOvf := if ovf && s.nOvf != 0xFFFF then s.nOvf + 1 else s.nOvf
        recOvf := s.recOvf || ovf
        pbPayload := s.pbPayload.set s.cnt.toNat (s.hiNib ++ v) h }
    (s.cnt ≠ 15 → exec (.loadHex arg) s = .next { stored with cnt := s.cnt + 1 }) ∧
    (s.cnt = 15 →
      exec (.loadHex arg) s =
        .next { stored with
          cnt := 0
          seqViol := s.seqViol || pageOutOfOrder s
          pages := if s.pages = 0xFFFFFFFF then s.pages else s.pages + 1
          recFull := true
          seq := .lhFlush })

/-- spec/44_hex_loader.md R236, R239. A record separator drops and reports a dangling digit, discards the bytes of the page without a report and ends the
record. -/
def Obligations.SeparatorDiscards : Prop :=
  ∀ (s : State) (arg : Word) (c : Byte) (rest : Supply Token),
    s.seq = .lhStream → s.hsIn.pop freeToken = some (.char c, rest) → hexValue c = none →
    exec (.loadHex arg) s =
      .next { s with
        hsIn := rest
        haveHi := false
        nOdd := if s.haveHi && s.nOdd != 0xFFFF then s.nOdd + 1 else s.nOdd
        trace := s.trace ++ (if s.haveHi then [.an .oddDigits] else [])
        cnt := 0
        recFull := false
        recOvf := false }

/-- spec/44_hex_loader.md R237, R239. The end of the stream drops and reports a dangling digit and responds; `cnt` keeps the leftover count. -/
def Obligations.EndOfStreamReports : Prop :=
  ∀ (s : State) (arg : Word) (rest : Supply Token), s.seq = .lhStream → s.hsIn.pop freeToken = some (.eos, rest) →
    let odd := if s.haveHi && s.nOdd != 0xFFFF then s.nOdd + 1 else s.nOdd
    let resp : Response :=
      { op := 22, status := s.stAcc, pages := s.pages, left := s.cnt, nOdd := odd, nOvf := s.nOvf }
    exec (.loadHex arg) s =
      .next { s with
        seq := .ready
        hsIn := rest
        haveHi := false
        nOdd := odd
        r := resp
        trace := s.trace ++ ((if s.haveHi then [.an .oddDigits] else []) ++ [.rsp resp]) }

/-- spec/44_hex_loader.md R235. A page transaction returns: the frame was `pb[0..19]`; on status 0 and in order `life` is PROGRAMMING; the stream comes
next whatever the status, and no poll is made. -/
def Obligations.PageTransactionReturns : Prop :=
  ∀ (s : State) (arg : Word) (a : Answer) (rest : Supply Answer), s.seq = .lhFlush → s.txIn.pop freeAnswer = some (a, rest) →
    exec (.loadHex arg) s =
      .next { s with
        seq := .lhStream
        txIn := rest
        stAcc := latched a s
        xfail := s.xfail || a.status != 0
        life := if a.status = 0 ∧ pageOutOfOrder s = false then .programming else s.life
        trace := s.trace ++ [.tx { w := (pb s).toList, wn := 20, rn := 0 } a.status []] }

/-- spec/44_hex_loader.md R240 (a), (b), R241. A stream of `16 k + m` bytes (`m < 16`) with no separator sends exactly `k` page frames whose payloads are the
stream's bytes in order, whatever the transport answers, and reports `k` pages, `m` leftover bytes, and one overflow from the seventeenth byte on. -/
def Obligations.StreamOfBytesBecomesPages : Prop :=
  ∀ (s : State) (bs : List Byte) (k m : Nat) (rest : Supply Token) (answers : List Answer) (more : Supply Answer),
    s.seq = .lhStream → s.rstIn = {} → s.cnt = 0 → s.haveHi = false → s.recFull = false → s.recOvf = false → s.pages = 0 →
    k < 2 ^ 32 → m < 16 → bs.length = 16 * k + m → s.hsIn.Gives freeToken (hexChars bs ++ [.eos]) rest →
    s.txIn.Gives freeAnswer answers more → answers.length = k →
    ∃ t, stepsTo (2 * bs.length + k + 1) s = some t ∧ t.seq = .ready ∧ t.r.op = 22 ∧ t.r.err = .ok ∧
      framesSent t = framesSent s ++
        (List.range k).map (fun j => pagePrefix s.params.ppOperand ++ (bs.drop (16 * j)).take 16) ∧
      t.r.pages.toNat = k ∧ t.r.left.toNat = m ∧ t.r.nOdd = s.nOdd ∧
      t.r.nOvf = (if 17 ≤ bs.length then satInc s.nOvf else s.nOvf) ∧ t.hsIn = rest ∧ t.txIn = more

/-- spec/44_hex_loader.md R241, R239, spec/40_sequencer.md R138 (f), (g). The counting laws, for any stream cut into records by separators: what each
record decodes, the pages it flushes and their payloads, the leftover of the last record, and the two anomaly counts (all counters saturating). -/
def Obligations.RecordCountingLaws : Prop :=
  ∀ (s : State) (first : List Byte) (later : List (Byte × List Byte)) (rest : Supply Token) (answers : List Answer) (more : Supply Answer),
    let records := first :: later.map Prod.snd
    let decoded := records.map recordBytes
    s.seq = .lhStream → s.rstIn = {} → s.cnt = 0 → s.haveHi = false → s.recFull = false → s.recOvf = false → s.pages = 0 →
    s.nOdd = 0 → s.nOvf = 0 →
    (∀ r ∈ records, ∀ c ∈ r, hexValue c ≠ none) → (∀ p ∈ later, hexValue p.1 = none) →
    s.hsIn.Gives freeToken (streamOf first later ++ [.eos]) rest →
    s.txIn.Gives freeAnswer answers more → answers.length = (decoded.map (fun b => b.length / 16)).sum →
    ∃ t, stepsTo ((streamOf first later).length + answers.length + 1) s = some t ∧ t.seq = .ready ∧ t.r.op = 22 ∧
      t.r.err = .ok ∧
      framesSent t = framesSent s ++ (decoded.flatMap pagesOf).map (pagePrefix s.params.ppOperand ++ ·) ∧
      t.r.pages.toNat = min answers.length (2 ^ 32 - 1) ∧
      t.r.left.toNat = ((decoded.getLast?).getD []).length % 16 ∧
      t.r.nOdd.toNat = min (records.countP (fun r => r.length % 2 == 1)) (2 ^ 16 - 1) ∧
      t.r.nOvf.toNat = min (decoded.countP (fun b => 17 ≤ b.length)) (2 ^ 16 - 1) ∧
      t.hsIn = rest ∧ t.txIn = more

/-! ### Waiting -/

/-- spec/00_scope.md R11, spec/40_sequencer.md R141. While an operation is in flight any other operation waits and changes nothing; and an operation whose
channel has nothing to give waits too. -/
def Obligations.OperationsWait : Prop :=
  ∀ (i : Instr) (s : State),
    (s.seq ≠ .ready → s.curOp ≠ opsel i →
      (s.seq = .poll → s.curOp = 21) → (s.seq = .lhReset ∨ s.seq = .lhStream ∨ s.seq = .lhFlush → s.curOp = 22) →
      exec i s = .next s) ∧
    (txPending s.seq = true → s.txIn.pop freeAnswer = none → exec i s = .next s) ∧
    (s.seq = .lhStream → s.hsIn.pop freeToken = none → exec i s = .next s)

/-- spec/60_exceptions.md R268, spec/40_sequencer.md R141. The three hangs are runs: some state polls for ever while the transport answers busy for ever,
every state that waits for a transport that presents nothing stays as it is, and some LOAD_HEX takes tokens for ever and never ends. -/
def Obligations.HangsAreRuns : Prop :=
  (∃ s : State, Inv s ∧ s.seq = .poll ∧ s.params.pollLimit = 0 ∧
    ∀ n, ∃ t, stepsTo n s = some t ∧ t.seq = .poll ∧ t.r = s.r ∧ (framesSent t).length = (framesSent s).length + n) ∧
  (∀ s : State, s.rstIn = {} → txPending s.seq = true → s.txIn = {} → ∀ n, stepsTo n s = some s) ∧
  ∃ s : State, Inv s ∧ s.seq = .lhStream ∧
    ∀ n, ∃ t, stepsTo n s = some t ∧ t.seq = .lhStream ∧ t.r = s.r ∧ t.hsIn.pop freeToken ≠ none

/-- spec/40_sequencer.md R141, spec/43_busy_wait.md R214. An operation ends only for its own cause: a simple operation with its `Return`, WAIT_BUSY with a
poll byte whose bit 7 is clear or at `POLL_LIMIT`, LOAD_HEX with `EOS`. -/
def Obligations.OperationsEndOnlyForTheirCause : Prop :=
  ∀ s t : State, rstNow s = false → step s = .next t → s.seq ≠ .ready → t.seq = .ready →
    (s.seq = .xact ∧ ∃ a, s.txIn.pop freeAnswer = some (a, t.txIn)) ∨
    (s.seq = .poll ∧ ∃ a, s.txIn.pop freeAnswer = some (a, t.txIn) ∧
      (a.bytes[0].getLsbD 7 = false ∨ s.params.pollLimit ≠ 0 ∧ s.params.pollLimit.toNat ≤ s.pollCnt.toNat + 1)) ∨
    (s.seq = .lhStream ∧ s.hsIn.pop freeToken = some (.eos, t.hsIn))

/-- spec/00_scope.md R11. A command is taken only in READY: at any other time it stays where it is, neither refused nor lost. -/
def Obligations.CommandsTakenOnlyInReady : Prop :=
  ∀ s t : State, step s = .next t →
    (s.seq ≠ .ready → t.cmdIn = s.cmdIn) ∧ (t.cmdIn = s.cmdIn ∨ ∃ c, s.cmdIn.pop freeCmd = some (c, t.cmdIn))

/-! ### The machine as a whole -/

/-- A step with no reset runs the operation that the command, or `seq`, names (spec/10_state.md R21, R22, R41), on the state whose command and
reset sample are used up (the supplies are the model's, log 2 and log 3). -/
def Obligations.StepRunsTheOperation : Prop :=
  ∀ s : State, rstNow s = false →
    (∀ c rest i, s.seq = .ready → s.cmdIn.pop freeCmd = some (c, rest) → decode c = .ok i →
      step s = exec i { s with cmdIn := rest, rstIn := s.rstIn.rest Config.freeRst }) ∧
    (s.seq = .ready → s.cmdIn.pop freeCmd = none → step s = .next { s with rstIn := s.rstIn.rest Config.freeRst }) ∧
    (∀ i, s.seq = .xact → decode { op := s.curOp, arg := s.curArg, buf := s.fb } = .ok i →
      step s = exec i { s with rstIn := s.rstIn.rest Config.freeRst }) ∧
    (s.seq = .poll → step s = exec (.waitBusy s.curArg) { s with rstIn := s.rstIn.rest Config.freeRst }) ∧
    (s.seq = .lhReset ∨ s.seq = .lhStream ∨ s.seq = .lhFlush →
      step s = exec (.loadHex s.curArg) { s with rstIn := s.rstIn.rest Config.freeRst })

/-- spec/10_state.md R44: the reset value of every register that has one. -/
def Obligations.ResetValues : Prop :=
  let s := State.reset
  seqCode s.seq = 0 ∧ s.curOp = 0 ∧ s.curArg = 0 ∧ s.wn = 0 ∧ s.rn = 0 ∧ s.stAcc = 0 ∧ s.pollCnt = 0 ∧ lifeCode s.life = 0 ∧
  s.cfgPos = false ∧ s.ufmPos = false ∧ s.erasePend = false ∧ s.seqViol = false ∧ s.xfail = false ∧
  (pb s).toList.take 4 = 0x70 :: ppBytes s.params.ppOperand ∧
  s.cnt = 0 ∧ s.haveHi = false ∧ s.recFull = false ∧ s.recOvf = false ∧ s.pages = 0 ∧ s.nOdd = 0 ∧ s.nOvf = 0 ∧
  s.r.op = 0 ∧ errCode s.r.err = 0 ∧ s.r.status = 0 ∧ s.r.len = 0 ∧ s.r.data = Vector.replicate 16 0 ∧ s.r.busy = false ∧
  s.r.count = 0 ∧ s.r.pages = 0 ∧ s.r.left = 0 ∧ s.r.nOdd = 0 ∧ s.r.nOvf = 0

/-- spec/70_reset_and_hazards.md R300. RST, whatever `seq` is: every register takes its reset value, `fb`, `pb[4..19]` and `hi_nib` some value; nothing
is sent or emitted; the parameters stay. -/
def Obligations.RstEvent : Prop :=
  ∀ (s : State) (later : Supply Bool), s.rstIn.pop Config.freeRst = some (true, later) →
    ∃ (fb : Buf) (p : Payload) (h : BitVec 4) (tx : Supply Answer) (n : Nat),
      step s =
        .next { State.reset with
          fb := fb, pbPayload := p, hiNib := h, params := s.params, cmdIn := s.cmdIn, hsIn := s.hsIn, rstIn := later
          txIn := tx, trace := s.trace, draws := n }

/-- spec/70_reset_and_hazards.md R302, and the model's choice of log 6: a reset taken while a transaction is pending drops that transaction's answer
and no other; the waiting commands and the tokens not yet taken stay. -/
def Obligations.RstDropsTheAbandonedAnswer : Prop :=
  ∀ (s : State), rstNow s = true →
    ∃ t, step s = .next t ∧ t.seq = .ready ∧ t.cmdIn = s.cmdIn ∧ t.hsIn = s.hsIn ∧
      (txPending s.seq = true → t.txIn = s.txIn.rest freeAnswer) ∧ (txPending s.seq = false → t.txIn = s.txIn)

/-- The invariant holds after reset. -/
def Obligations.ResetSatisfiesInv : Prop := Inv State.reset

/-- spec/10_state.md R45 (b), (d), (g), spec/20_memory.md R68: every step keeps the invariant, from every state that has it. -/
def Obligations.StepKeepsInv : Prop :=
  ∀ s t : State, Inv s → step s = .next t → Inv t

/-- spec/60_exceptions.md R260: no operation and no step stops the block. -/
def Obligations.NothingStopsTheBlock : Prop :=
  (∀ (i : Instr) (s : State), ∃ t, exec i s = .next t) ∧ ∀ s : State, ∃ t, step s = .next t

/-- spec/10_state.md R30, R31, R45 (e): `seq_viol` and `xfail` go from 1 to 0 only by a reset. -/
def Obligations.StickyFlagsStay : Prop :=
  ∀ s t : State, rstNow s = false → step s = .next t →
    (s.seqViol = true → t.seqViol = true) ∧ (s.xfail = true → t.xfail = true)

/-- spec/10_state.md R32, spec/60_exceptions.md R278: no step changes a parameter or the prefix `pb[0..3]`, which is 0x70 and PP_OPERAND. -/
def Obligations.ParametersAndPrefixFixed : Prop :=
  ∀ s t : State, step s = .next t →
    t.params = s.params ∧
    (pb t).toList.take 4 =
      [0x70, s.params.ppOperand.extractLsb' 16 8, s.params.ppOperand.extractLsb' 8 8, s.params.ppOperand.extractLsb' 0 8]

/-- spec/10_state.md R26, spec/40_sequencer.md R133, R135: `life` moves only when a frame that is in order returns status 0, and it moves as the
table says for that frame's class. -/
def Obligations.LifeMovesOnlyInOrder : Prop :=
  ∀ s t : State, rstNow s = false → step s = .next t → t.life ≠ s.life →
    ∃ (i : Instr) (a : Answer) (rest : Supply Answer),
      s.txIn.pop freeAnswer = some (a, rest) ∧ a.status = 0 ∧ legal i s = true ∧ lifeNext (lifeClass i) s.life = some t.life ∧
      (s.seq = .xact ∧ inFlight s = .ok i ∨ s.seq = .lhReset ∧ i = .resetCfgAddr 0 ∨
        s.seq = .lhFlush ∧ i = .programPage 0 (pb s))

/-- spec/40_sequencer.md R135, R136, spec/60_exceptions.md R266: a transaction that fails sets `xfail`, is latched if it is the first failure of the
operation, and moves no shadow flag and no lifecycle state. -/
def Obligations.FailureMovesNoShadow : Prop :=
  ∀ (s : State) (a : Answer) (rest : Supply Answer), rstNow s = false → txPending s.seq = true → s.txIn.pop freeAnswer = some (a, rest) →
    a.status ≠ 0 → (s.seq = .xact → s.curOp.toNat ≤ 20) →
    ∃ t, step s = .next t ∧ t.xfail = true ∧ t.stAcc = (if s.stAcc = 0 then a.status else s.stAcc) ∧ t.life = s.life ∧
      t.cfgPos = s.cfgPos ∧ t.ufmPos = s.ufmPos ∧ t.erasePend = s.erasePend ∧ t.txIn = rest

/-- spec/20_memory.md R73, spec/40_sequencer.md R136: a step in READY or LH_STREAM sends nothing; a step in a transaction state that is answered sends
exactly the pending request, and nothing else. -/
def Obligations.OneFramePerReturn : Prop :=
  ∀ s t : State, rstNow s = false → step s = .next t →
    (s.seq = .ready ∨ s.seq = .lhStream → framesSent t = framesSent s) ∧
    (txPending s.seq = true → s.txIn.pop freeAnswer ≠ none → (s.seq = .xact → s.curOp.toNat ≤ 20) →
      framesSent t = framesSent s ++ [(request s).w])

/-- spec/40_sequencer.md R139, spec/60_exceptions.md R264: with `HARDEN = 1` a command that is out of order is refused with ORDER, or with RANGE, which
is decided first; nothing is sent and the shadow state does not move; only ORDER sets `seq_viol`. -/
def Obligations.HardenRefusesOutOfOrder : Prop :=
  ∀ (s : State) (c : Cmd) (rest : Supply Cmd) (i : Instr), rstNow s = false → s.seq = .ready → s.params.harden = true →
    s.cmdIn.pop freeCmd = some (c, rest) → decode c = .ok i → legal i s = false →
    ∃ t, step s = .next t ∧ t.seq = .ready ∧ t.r.op = c.op ∧ (t.r.err = .range ∨ t.r.err = .order ∧ t.seqViol = true) ∧
      (t.r.err = .range → t.seqViol = s.seqViol ∧ 0x10000 ≤ c.arg.toNat) ∧
      framesSent t = framesSent s ∧ shadowOf t = shadowOf s ∧ t.curOp = s.curOp ∧ t.stAcc = s.stAcc

/-- spec/70_reset_and_hazards.md R305, spec/40_sequencer.md R133. The session sequence, with any number of pages and of busy polls, every status 0: it
runs to ACTIVATED in both `HARDEN` settings without setting `seq_viol`, clears the pointer flags, and sends exactly these frames. -/
def Obligations.SessionSequenceActivates : Prop :=
  ∀ (s : State) (flags : Word) (pages : List Buf) (before busy after : List Answer) (rdy : Answer) (cmds : Supply Cmd)
    (more : Supply Answer),
    s.seq = .ready → s.rstIn = {} → s.life = .idle ∨ s.life = .activated → s.erasePend = false →
    flags.getLsbD 18 = true → pages ≠ [] →
    s.cmdIn.Gives freeCmd
      ([encode (.resetCfgAddr 0), encode (.erase flags), encode (.waitBusy 0), encode (.resetCfgAddr 0)] ++
        pages.map (fun b => encode (.programPage 0 b)) ++ [encode (.programDone 0), encode (.refresh 0)]) cmds →
    s.txIn.Gives freeAnswer (before ++ (busy ++ rdy :: after)) more → before.length = 2 → after.length = pages.length + 3 →
    (∀ a ∈ before ++ (busy ++ rdy :: after), a.status = 0) →
    (∀ a ∈ busy, a.bytes[0].getLsbD 7 = true) → rdy.bytes[0].getLsbD 7 = false →
    (s.params.pollLimit = 0 ∨ busy.length < s.params.pollLimit.toNat) →
    ∃ t, stepsTo (2 * (pages.length + 5) + (busy.length + 2)) s = some t ∧ t.seq = .ready ∧ t.life = .activated ∧
      t.seqViol = s.seqViol ∧ t.xfail = s.xfail ∧ t.cfgPos = false ∧ t.ufmPos = false ∧ t.erasePend = false ∧
      t.cmdIn = cmds ∧ t.txIn = more ∧
      framesSent t = framesSent s ++
        ([[0x46, 0, 0, 0], [0x0E, eraseOperand flags, 0, 0]] ++ List.replicate (busy.length + 1) [0xF0, 0, 0, 0] ++
          [[0x46, 0, 0, 0]] ++ pages.map Vector.toList ++ [[0x5E, 0, 0, 0], [0x79, 0, 0]])

/-- spec/40_sequencer.md R135, the comment of `apply_effects`: from the accept of a frame to its return its legality does not change. -/
def Obligations.LegalityHoldsUntilReturn : Prop :=
  ∀ (i : Instr) (s t : State), s.seq = .ready → exec i s = .next t → t.seq = .xact → legal i t = legal i s

/-- spec/10_state.md R30: `seq_viol` "changes nothing on the bus": two states that differ in it alone step to states that differ in it alone. -/
def Obligations.SeqViolIsInert : Prop :=
  ∀ (s t : State) (b : Bool), step s = .next t → ∃ b', step { s with seqViol := b } = .next { t with seqViol := b' }

/-- spec/00_scope.md R6: TRANSPORT_KIND "has no effect on any rule of this spec". -/
def Obligations.TransportKindIsInert : Prop :=
  ∀ (s t : State) (k : TransportKind), step s = .next t →
    step { s with params := { s.params with transport := k } } = .next { t with params := { t.params with transport := k } }

/-- spec/20_memory.md R67, spec/10_state.md R45 (c): a page becomes pending only when its sixteenth byte is stored; the frame is the constant prefix and
the sixteen payload bytes with that byte last. -/
def Obligations.PageSentOnlyWhenFull : Prop :=
  ∀ s t : State, step s = .next t → t.seq = .lhFlush → s.seq ≠ .lhFlush →
    s.seq = .lhStream ∧ s.cnt = 15 ∧ s.haveHi = true ∧ t.cnt = 0 ∧
    ∃ c v rest, s.hsIn.pop freeToken = some (.char c, rest) ∧ hexValue c = some v ∧
      (request t).w = pagePrefix s.params.ppOperand ++ (s.pbPayload.set 15 (s.hiNib ++ v)).toList

/-- spec/10_state.md R40 (with the codes of R21 and R26): every field of STAT; bits 15:11 read as 0. -/
def Obligations.StatWord : Prop :=
  ∀ s : State,
    s.stat.extractLsb' 0 3 = lifeCode s.life ∧ s.stat.getLsbD 3 = s.cfgPos ∧ s.stat.getLsbD 4 = s.ufmPos ∧
    s.stat.getLsbD 5 = s.erasePend ∧ s.stat.getLsbD 6 = s.seqViol ∧ s.stat.getLsbD 7 = s.xfail ∧
    s.stat.extractLsb' 8 3 = seqCode s.seq ∧ s.stat.extractLsb' 11 5 = 0

/-- spec/70_reset_and_hazards.md R301: bits that reset or a frame leaves unspecified reach no channel: two states that agree but for them step to
states that agree but for them, with the same responses, anomalies and transactions. -/
def Obligations.UnspecifiedBitsReachNoChannel : Prop :=
  ∀ s s' t : State, AgreeOnSpecified s s' → step s = .next t → ∃ t', step s' = .next t' ∧ AgreeOnSpecified t t'
end

