-- ==== Sys2Proof/Laws/State.lean ====
section
/-! SUPPORT. One lemma per field per named update of the state, each true by `rfl`, so that no proof unfolds a record update. -/

namespace Sys2Proof.Machine

/-! ### emit -/

@[simp] theorem emit_seq (e : Event) (s : State) : (emit e s).seq = s.seq := rfl
@[simp] theorem emit_curOp (e : Event) (s : State) : (emit e s).curOp = s.curOp := rfl
@[simp] theorem emit_curArg (e : Event) (s : State) : (emit e s).curArg = s.curArg := rfl
@[simp] theorem emit_fb (e : Event) (s : State) : (emit e s).fb = s.fb := rfl
@[simp] theorem emit_wn (e : Event) (s : State) : (emit e s).wn = s.wn := rfl
@[simp] theorem emit_rn (e : Event) (s : State) : (emit e s).rn = s.rn := rfl
@[simp] theorem emit_stAcc (e : Event) (s : State) : (emit e s).stAcc = s.stAcc := rfl
@[simp] theorem emit_pollCnt (e : Event) (s : State) : (emit e s).pollCnt = s.pollCnt := rfl
@[simp] theorem emit_life (e : Event) (s : State) : (emit e s).life = s.life := rfl
@[simp] theorem emit_cfgPos (e : Event) (s : State) : (emit e s).cfgPos = s.cfgPos := rfl
@[simp] theorem emit_ufmPos (e : Event) (s : State) : (emit e s).ufmPos = s.ufmPos := rfl
@[simp] theorem emit_erasePend (e : Event) (s : State) : (emit e s).erasePend = s.erasePend := rfl
@[simp] theorem emit_seqViol (e : Event) (s : State) : (emit e s).seqViol = s.seqViol := rfl
@[simp] theorem emit_xfail (e : Event) (s : State) : (emit e s).xfail = s.xfail := rfl
@[simp] theorem emit_pbPayload (e : Event) (s : State) : (emit e s).pbPayload = s.pbPayload := rfl
@[simp] theorem emit_cnt (e : Event) (s : State) : (emit e s).cnt = s.cnt := rfl
@[simp] theorem emit_haveHi (e : Event) (s : State) : (emit e s).haveHi = s.haveHi := rfl
@[simp] theorem emit_hiNib (e : Event) (s : State) : (emit e s).hiNib = s.hiNib := rfl
@[simp] theorem emit_recFull (e : Event) (s : State) : (emit e s).recFull = s.recFull := rfl
@[simp] theorem emit_recOvf (e : Event) (s : State) : (emit e s).recOvf = s.recOvf := rfl
@[simp] theorem emit_pages (e : Event) (s : State) : (emit e s).pages = s.pages := rfl
@[simp] theorem emit_nOdd (e : Event) (s : State) : (emit e s).nOdd = s.nOdd := rfl
@[simp] theorem emit_nOvf (e : Event) (s : State) : (emit e s).nOvf = s.nOvf := rfl
@[simp] theorem emit_r (e : Event) (s : State) : (emit e s).r = s.r := rfl
@[simp] theorem emit_params (e : Event) (s : State) : (emit e s).params = s.params := rfl
@[simp] theorem emit_cmdIn (e : Event) (s : State) : (emit e s).cmdIn = s.cmdIn := rfl
@[simp] theorem emit_txIn (e : Event) (s : State) : (emit e s).txIn = s.txIn := rfl
@[simp] theorem emit_hsIn (e : Event) (s : State) : (emit e s).hsIn = s.hsIn := rfl
@[simp] theorem emit_rstIn (e : Event) (s : State) : (emit e s).rstIn = s.rstIn := rfl
@[simp] theorem emit_trace (e : Event) (s : State) : (emit e s).trace = s.trace ++ [e] := rfl
@[simp] theorem emit_draws (e : Event) (s : State) : (emit e s).draws = s.draws := rfl

/-! ### respond -/

@[simp] theorem respond_seq (resp : Response) (s : State) : (respond resp s).seq = .ready := rfl
@[simp] theorem respond_curOp (resp : Response) (s : State) : (respond resp s).curOp = s.curOp := rfl
@[simp] theorem respond_curArg (resp : Response) (s : State) : (respond resp s).curArg = s.curArg := rfl
@[simp] theorem respond_fb (resp : Response) (s : State) : (respond resp s).fb = s.fb := rfl
@[simp] theorem respond_wn (resp : Response) (s : State) : (respond resp s).wn = s.wn := rfl
@[simp] theorem respond_rn (resp : Response) (s : State) : (respond resp s).rn = s.rn := rfl
@[simp] theorem respond_stAcc (resp : Response) (s : State) : (respond resp s).stAcc = s.stAcc := rfl
@[simp] theorem respond_pollCnt (resp : Response) (s : State) : (respond resp s).pollCnt = s.pollCnt := rfl
@[simp] theorem respond_life (resp : Response) (s : State) : (respond resp s).life = s.life := rfl
@[simp] theorem respond_cfgPos (resp : Response) (s : State) : (respond resp s).cfgPos = s.cfgPos := rfl
@[simp] theorem respond_ufmPos (resp : Response) (s : State) : (respond resp s).ufmPos = s.ufmPos := rfl
@[simp] theorem respond_erasePend (resp : Response) (s : State) : (respond resp s).erasePend = s.erasePend := rfl
@[simp] theorem respond_seqViol (resp : Response) (s : State) : (respond resp s).seqViol = s.seqViol := rfl
@[simp] theorem respond_xfail (resp : Response) (s : State) : (respond resp s).xfail = s.xfail := rfl
@[simp] theorem respond_pbPayload (resp : Response) (s : State) : (respond resp s).pbPayload = s.pbPayload := rfl
@[simp] theorem respond_cnt (resp : Response) (s : State) : (respond resp s).cnt = s.cnt := rfl
@[simp] theorem respond_haveHi (resp : Response) (s : State) : (respond resp s).haveHi = s.haveHi := rfl
@[simp] theorem respond_hiNib (resp : Response) (s : State) : (respond resp s).hiNib = s.hiNib := rfl
@[simp] theorem respond_recFull (resp : Response) (s : State) : (respond resp s).recFull = s.recFull := rfl
@[simp] theorem respond_recOvf (resp : Response) (s : State) : (respond resp s).recOvf = s.recOvf := rfl
@[simp] theorem respond_pages (resp : Response) (s : State) : (respond resp s).pages = s.pages := rfl
@[simp] theorem respond_nOdd (resp : Response) (s : State) : (respond resp s).nOdd = s.nOdd := rfl
@[simp] theorem respond_nOvf (resp : Response) (s : State) : (respond resp s).nOvf = s.nOvf := rfl
@[simp] theorem respond_r (resp : Response) (s : State) : (respond resp s).r = resp := rfl
@[simp] theorem respond_params (resp : Response) (s : State) : (respond resp s).params = s.params := rfl
@[simp] theorem respond_cmdIn (resp : Response) (s : State) : (respond resp s).cmdIn = s.cmdIn := rfl
@[simp] theorem respond_txIn (resp : Response) (s : State) : (respond resp s).txIn = s.txIn := rfl
@[simp] theorem respond_hsIn (resp : Response) (s : State) : (respond resp s).hsIn = s.hsIn := rfl
@[simp] theorem respond_rstIn (resp : Response) (s : State) : (respond resp s).rstIn = s.rstIn := rfl
@[simp] theorem respond_trace (resp : Response) (s : State) : (respond resp s).trace = s.trace ++ [.rsp resp] := rfl
@[simp] theorem respond_draws (resp : Response) (s : State) : (respond resp s).draws = s.draws := rfl

/-! ### loadFrame -/

@[simp] theorem loadFrame_seq (i : Instr) (s : State) : (loadFrame i s).seq = s.seq := rfl
@[simp] theorem loadFrame_curOp (i : Instr) (s : State) : (loadFrame i s).curOp = s.curOp := rfl
@[simp] theorem loadFrame_curArg (i : Instr) (s : State) : (loadFrame i s).curArg = s.curArg := rfl
@[simp] theorem loadFrame_fb (i : Instr) (s : State) : (loadFrame i s).fb = overlay (frameBytes i) (Config.fbTail s.draws) := rfl
@[simp] theorem loadFrame_wn (i : Instr) (s : State) : (loadFrame i s).wn = BitVec.ofNat 5 (frameBytes i).length := rfl
@[simp] theorem loadFrame_rn (i : Instr) (s : State) : (loadFrame i s).rn = readLen i := rfl
@[simp] theorem loadFrame_stAcc (i : Instr) (s : State) : (loadFrame i s).stAcc = s.stAcc := rfl
@[simp] theorem loadFrame_pollCnt (i : Instr) (s : State) : (loadFrame i s).pollCnt = s.pollCnt := rfl
@[simp] theorem loadFrame_life (i : Instr) (s : State) : (loadFrame i s).life = s.life := rfl
@[simp] theorem loadFrame_cfgPos (i : Instr) (s : State) : (loadFrame i s).cfgPos = s.cfgPos := rfl
@[simp] theorem loadFrame_ufmPos (i : Instr) (s : State) : (loadFrame i s).ufmPos = s.ufmPos := rfl
@[simp] theorem loadFrame_erasePend (i : Instr) (s : State) : (loadFrame i s).erasePend = s.erasePend := rfl
@[simp] theorem loadFrame_seqViol (i : Instr) (s : State) : (loadFrame i s).seqViol = s.seqViol := rfl
@[simp] theorem loadFrame_xfail (i : Instr) (s : State) : (loadFrame i s).xfail = s.xfail := rfl
@[simp] theorem loadFrame_pbPayload (i : Instr) (s : State) : (loadFrame i s).pbPayload = s.pbPayload := rfl
@[simp] theorem loadFrame_cnt (i : Instr) (s : State) : (loadFrame i s).cnt = s.cnt := rfl
@[simp] theorem loadFrame_haveHi (i : Instr) (s : State) : (loadFrame i s).haveHi = s.haveHi := rfl
@[simp] theorem loadFrame_hiNib (i : Instr) (s : State) : (loadFrame i s).hiNib = s.hiNib := rfl
@[simp] theorem loadFrame_recFull (i : Instr) (s : State) : (loadFrame i s).recFull = s.recFull := rfl
@[simp] theorem loadFrame_recOvf (i : Instr) (s : State) : (loadFrame i s).recOvf = s.recOvf := rfl
@[simp] theorem loadFrame_pages (i : Instr) (s : State) : (loadFrame i s).pages = s.pages := rfl
@[simp] theorem loadFrame_nOdd (i : Instr) (s : State) : (loadFrame i s).nOdd = s.nOdd := rfl
@[simp] theorem loadFrame_nOvf (i : Instr) (s : State) : (loadFrame i s).nOvf = s.nOvf := rfl
@[simp] theorem loadFrame_r (i : Instr) (s : State) : (loadFrame i s).r = s.r := rfl
@[simp] theorem loadFrame_params (i : Instr) (s : State) : (loadFrame i s).params = s.params := rfl
@[simp] theorem loadFrame_cmdIn (i : Instr) (s : State) : (loadFrame i s).cmdIn = s.cmdIn := rfl
@[simp] theorem loadFrame_txIn (i : Instr) (s : State) : (loadFrame i s).txIn = s.txIn := rfl
@[simp] theorem loadFrame_hsIn (i : Instr) (s : State) : (loadFrame i s).hsIn = s.hsIn := rfl
@[simp] theorem loadFrame_rstIn (i : Instr) (s : State) : (loadFrame i s).rstIn = s.rstIn := rfl
@[simp] theorem loadFrame_trace (i : Instr) (s : State) : (loadFrame i s).trace = s.trace := rfl
@[simp] theorem loadFrame_draws (i : Instr) (s : State) : (loadFrame i s).draws = s.draws + 1 := rfl

/-! ### clearLoader -/

@[simp] theorem clearLoader_seq (s : State) : (clearLoader s).seq = s.seq := rfl
@[simp] theorem clearLoader_curOp (s : State) : (clearLoader s).curOp = s.curOp := rfl
@[simp] theorem clearLoader_curArg (s : State) : (clearLoader s).curArg = s.curArg := rfl
@[simp] theorem clearLoader_fb (s : State) : (clearLoader s).fb = s.fb := rfl
@[simp] theorem clearLoader_wn (s : State) : (clearLoader s).wn = s.wn := rfl
@[simp] theorem clearLoader_rn (s : State) : (clearLoader s).rn = s.rn := rfl
@[simp] theorem clearLoader_stAcc (s : State) : (clearLoader s).stAcc = s.stAcc := rfl
@[simp] theorem clearLoader_pollCnt (s : State) : (clearLoader s).pollCnt = s.pollCnt := rfl
@[simp] theorem clearLoader_life (s : State) : (clearLoader s).life = s.life := rfl
@[simp] theorem clearLoader_cfgPos (s : State) : (clearLoader s).cfgPos = s.cfgPos := rfl
@[simp] theorem clearLoader_ufmPos (s : State) : (clearLoader s).ufmPos = s.ufmPos := rfl
@[simp] theorem clearLoader_erasePend (s : State) : (clearLoader s).erasePend = s.erasePend := rfl
@[simp] theorem clearLoader_seqViol (s : State) : (clearLoader s).seqViol = s.seqViol := rfl
@[simp] theorem clearLoader_xfail (s : State) : (clearLoader s).xfail = s.xfail := rfl
@[simp] theorem clearLoader_pbPayload (s : State) : (clearLoader s).pbPayload = s.pbPayload := rfl
@[simp] theorem clearLoader_cnt (s : State) : (clearLoader s).cnt = 0 := rfl
@[simp] theorem clearLoader_haveHi (s : State) : (clearLoader s).haveHi = false := rfl
@[simp] theorem clearLoader_hiNib (s : State) : (clearLoader s).hiNib = s.hiNib := rfl
@[simp] theorem clearLoader_recFull (s : State) : (clearLoader s).recFull = false := rfl
@[simp] theorem clearLoader_recOvf (s : State) : (clearLoader s).recOvf = false := rfl
@[simp] theorem clearLoader_pages (s : State) : (clearLoader s).pages = 0 := rfl
@[simp] theorem clearLoader_nOdd (s : State) : (clearLoader s).nOdd = 0 := rfl
@[simp] theorem clearLoader_nOvf (s : State) : (clearLoader s).nOvf = 0 := rfl
@[simp] theorem clearLoader_r (s : State) : (clearLoader s).r = s.r := rfl
@[simp] theorem clearLoader_params (s : State) : (clearLoader s).params = s.params := rfl
@[simp] theorem clearLoader_cmdIn (s : State) : (clearLoader s).cmdIn = s.cmdIn := rfl
@[simp] theorem clearLoader_txIn (s : State) : (clearLoader s).txIn = s.txIn := rfl
@[simp] theorem clearLoader_hsIn (s : State) : (clearLoader s).hsIn = s.hsIn := rfl
@[simp] theorem clearLoader_rstIn (s : State) : (clearLoader s).rstIn = s.rstIn := rfl
@[simp] theorem clearLoader_trace (s : State) : (clearLoader s).trace = s.trace := rfl
@[simp] theorem clearLoader_draws (s : State) : (clearLoader s).draws = s.draws := rfl

/-! ### useRstSample -/

@[simp] theorem useRstSample_seq (s : State) : (useRstSample s).seq = s.seq := rfl
@[simp] theorem useRstSample_curOp (s : State) : (useRstSample s).curOp = s.curOp := rfl
@[simp] theorem useRstSample_curArg (s : State) : (useRstSample s).curArg = s.curArg := rfl
@[simp] theorem useRstSample_fb (s : State) : (useRstSample s).fb = s.fb := rfl
@[simp] theorem useRstSample_wn (s : State) : (useRstSample s).wn = s.wn := rfl
@[simp] theorem useRstSample_rn (s : State) : (useRstSample s).rn = s.rn := rfl
@[simp] theorem useRstSample_stAcc (s : State) : (useRstSample s).stAcc = s.stAcc := rfl
@[simp] theorem useRstSample_pollCnt (s : State) : (useRstSample s).pollCnt = s.pollCnt := rfl
@[simp] theorem useRstSample_life (s : State) : (useRstSample s).life = s.life := rfl
@[simp] theorem useRstSample_cfgPos (s : State) : (useRstSample s).cfgPos = s.cfgPos := rfl
@[simp] theorem useRstSample_ufmPos (s : State) : (useRstSample s).ufmPos = s.ufmPos := rfl
@[simp] theorem useRstSample_erasePend (s : State) : (useRstSample s).erasePend = s.erasePend := rfl
@[simp] theorem useRstSample_seqViol (s : State) : (useRstSample s).seqViol = s.seqViol := rfl
@[simp] theorem useRstSample_xfail (s : State) : (useRstSample s).xfail = s.xfail := rfl
@[simp] theorem useRstSample_pbPayload (s : State) : (useRstSample s).pbPayload = s.pbPayload := rfl
@[simp] theorem useRstSample_cnt (s : State) : (useRstSample s).cnt = s.cnt := rfl
@[simp] theorem useRstSample_haveHi (s : State) : (useRstSample s).haveHi = s.haveHi := rfl
@[simp] theorem useRstSample_hiNib (s : State) : (useRstSample s).hiNib = s.hiNib := rfl
@[simp] theorem useRstSample_recFull (s : State) : (useRstSample s).recFull = s.recFull := rfl
@[simp] theorem useRstSample_recOvf (s : State) : (useRstSample s).recOvf = s.recOvf := rfl
@[simp] theorem useRstSample_pages (s : State) : (useRstSample s).pages = s.pages := rfl
@[simp] theorem useRstSample_nOdd (s : State) : (useRstSample s).nOdd = s.nOdd := rfl
@[simp] theorem useRstSample_nOvf (s : State) : (useRstSample s).nOvf = s.nOvf := rfl
@[simp] theorem useRstSample_r (s : State) : (useRstSample s).r = s.r := rfl
@[simp] theorem useRstSample_params (s : State) : (useRstSample s).params = s.params := rfl
@[simp] theorem useRstSample_cmdIn (s : State) : (useRstSample s).cmdIn = s.cmdIn := rfl
@[simp] theorem useRstSample_txIn (s : State) : (useRstSample s).txIn = s.txIn := rfl
@[simp] theorem useRstSample_hsIn (s : State) : (useRstSample s).hsIn = s.hsIn := rfl
@[simp] theorem useRstSample_rstIn (s : State) : (useRstSample s).rstIn = s.rstIn.rest Config.freeRst := rfl
@[simp] theorem useRstSample_trace (s : State) : (useRstSample s).trace = s.trace := rfl
@[simp] theorem useRstSample_draws (s : State) : (useRstSample s).draws = s.draws := rfl

/-! ### countPoll -/

@[simp] theorem countPoll_seq (s : State) : (countPoll s).seq = s.seq := rfl
@[simp] theorem countPoll_curOp (s : State) : (countPoll s).curOp = s.curOp := rfl
@[simp] theorem countPoll_curArg (s : State) : (countPoll s).curArg = s.curArg := rfl
@[simp] theorem countPoll_fb (s : State) : (countPoll s).fb = s.fb := rfl
@[simp] theorem countPoll_wn (s : State) : (countPoll s).wn = s.wn := rfl
@[simp] theorem countPoll_rn (s : State) : (countPoll s).rn = s.rn := rfl
@[simp] theorem countPoll_stAcc (s : State) : (countPoll s).stAcc = s.stAcc := rfl
@[simp] theorem countPoll_pollCnt (s : State) : (countPoll s).pollCnt = satInc s.pollCnt := rfl
@[simp] theorem countPoll_life (s : State) : (countPoll s).life = s.life := rfl
@[simp] theorem countPoll_cfgPos (s : State) : (countPoll s).cfgPos = s.cfgPos := rfl
@[simp] theorem countPoll_ufmPos (s : State) : (countPoll s).ufmPos = s.ufmPos := rfl
@[simp] theorem countPoll_erasePend (s : State) : (countPoll s).erasePend = s.erasePend := rfl
@[simp] theorem countPoll_seqViol (s : State) : (countPoll s).seqViol = s.seqViol := rfl
@[simp] theorem countPoll_xfail (s : State) : (countPoll s).xfail = s.xfail := rfl
@[simp] theorem countPoll_pbPayload (s : State) : (countPoll s).pbPayload = s.pbPayload := rfl
@[simp] theorem countPoll_cnt (s : State) : (countPoll s).cnt = s.cnt := rfl
@[simp] theorem countPoll_haveHi (s : State) : (countPoll s).haveHi = s.haveHi := rfl
@[simp] theorem countPoll_hiNib (s : State) : (countPoll s).hiNib = s.hiNib := rfl
@[simp] theorem countPoll_recFull (s : State) : (countPoll s).recFull = s.recFull := rfl
@[simp] theorem countPoll_recOvf (s : State) : (countPoll s).recOvf = s.recOvf := rfl
@[simp] theorem countPoll_pages (s : State) : (countPoll s).pages = s.pages := rfl
@[simp] theorem countPoll_nOdd (s : State) : (countPoll s).nOdd = s.nOdd := rfl
@[simp] theorem countPoll_nOvf (s : State) : (countPoll s).nOvf = s.nOvf := rfl
@[simp] theorem countPoll_r (s : State) : (countPoll s).r = s.r := rfl
@[simp] theorem countPoll_params (s : State) : (countPoll s).params = s.params := rfl
@[simp] theorem countPoll_cmdIn (s : State) : (countPoll s).cmdIn = s.cmdIn := rfl
@[simp] theorem countPoll_txIn (s : State) : (countPoll s).txIn = s.txIn := rfl
@[simp] theorem countPoll_hsIn (s : State) : (countPoll s).hsIn = s.hsIn := rfl
@[simp] theorem countPoll_rstIn (s : State) : (countPoll s).rstIn = s.rstIn := rfl
@[simp] theorem countPoll_trace (s : State) : (countPoll s).trace = s.trace := rfl
@[simp] theorem countPoll_draws (s : State) : (countPoll s).draws = s.draws := rfl

/-! ### firstDigit -/

@[simp] theorem firstDigit_seq (v : BitVec 4) (s : State) : (firstDigit v s).seq = s.seq := rfl
@[simp] theorem firstDigit_curOp (v : BitVec 4) (s : State) : (firstDigit v s).curOp = s.curOp := rfl
@[simp] theorem firstDigit_curArg (v : BitVec 4) (s : State) : (firstDigit v s).curArg = s.curArg := rfl
@[simp] theorem firstDigit_fb (v : BitVec 4) (s : State) : (firstDigit v s).fb = s.fb := rfl
@[simp] theorem firstDigit_wn (v : BitVec 4) (s : State) : (firstDigit v s).wn = s.wn := rfl
@[simp] theorem firstDigit_rn (v : BitVec 4) (s : State) : (firstDigit v s).rn = s.rn := rfl
@[simp] theorem firstDigit_stAcc (v : BitVec 4) (s : State) : (firstDigit v s).stAcc = s.stAcc := rfl
@[simp] theorem firstDigit_pollCnt (v : BitVec 4) (s : State) : (firstDigit v s).pollCnt = s.pollCnt := rfl
@[simp] theorem firstDigit_life (v : BitVec 4) (s : State) : (firstDigit v s).life = s.life := rfl
@[simp] theorem firstDigit_cfgPos (v : BitVec 4) (s : State) : (firstDigit v s).cfgPos = s.cfgPos := rfl
@[simp] theorem firstDigit_ufmPos (v : BitVec 4) (s : State) : (firstDigit v s).ufmPos = s.ufmPos := rfl
@[simp] theorem firstDigit_erasePend (v : BitVec 4) (s : State) : (firstDigit v s).erasePend = s.erasePend := rfl
@[simp] theorem firstDigit_seqViol (v : BitVec 4) (s : State) : (firstDigit v s).seqViol = s.seqViol := rfl
@[simp] theorem firstDigit_xfail (v : BitVec 4) (s : State) : (firstDigit v s).xfail = s.xfail := rfl
@[simp] theorem firstDigit_pbPayload (v : BitVec 4) (s : State) : (firstDigit v s).pbPayload = s.pbPayload := rfl
@[simp] theorem firstDigit_cnt (v : BitVec 4) (s : State) : (firstDigit v s).cnt = s.cnt := rfl
@[simp] theorem firstDigit_haveHi (v : BitVec 4) (s : State) : (firstDigit v s).haveHi = true := rfl
@[simp] theorem firstDigit_hiNib (v : BitVec 4) (s : State) : (firstDigit v s).hiNib = v := rfl
@[simp] theorem firstDigit_recFull (v : BitVec 4) (s : State) : (firstDigit v s).recFull = s.recFull := rfl
@[simp] theorem firstDigit_recOvf (v : BitVec 4) (s : State) : (firstDigit v s).recOvf = s.recOvf := rfl
@[simp] theorem firstDigit_pages (v : BitVec 4) (s : State) : (firstDigit v s).pages = s.pages := rfl
@[simp] theorem firstDigit_nOdd (v : BitVec 4) (s : State) : (firstDigit v s).nOdd = s.nOdd := rfl
@[simp] theorem firstDigit_nOvf (v : BitVec 4) (s : State) : (firstDigit v s).nOvf = s.nOvf := rfl
@[simp] theorem firstDigit_r (v : BitVec 4) (s : State) : (firstDigit v s).r = s.r := rfl
@[simp] theorem firstDigit_params (v : BitVec 4) (s : State) : (firstDigit v s).params = s.params := rfl
@[simp] theorem firstDigit_cmdIn (v : BitVec 4) (s : State) : (firstDigit v s).cmdIn = s.cmdIn := rfl
@[simp] theorem firstDigit_txIn (v : BitVec 4) (s : State) : (firstDigit v s).txIn = s.txIn := rfl
@[simp] theorem firstDigit_hsIn (v : BitVec 4) (s : State) : (firstDigit v s).hsIn = s.hsIn := rfl
@[simp] theorem firstDigit_rstIn (v : BitVec 4) (s : State) : (firstDigit v s).rstIn = s.rstIn := rfl
@[simp] theorem firstDigit_trace (v : BitVec 4) (s : State) : (firstDigit v s).trace = s.trace := rfl
@[simp] theorem firstDigit_draws (v : BitVec 4) (s : State) : (firstDigit v s).draws = s.draws := rfl

/-! ### putByte -/

@[simp] theorem putByte_seq (b : Byte) (s : State) : (putByte b s).seq = s.seq := rfl
@[simp] theorem putByte_curOp (b : Byte) (s : State) : (putByte b s).curOp = s.curOp := rfl
@[simp] theorem putByte_curArg (b : Byte) (s : State) : (putByte b s).curArg = s.curArg := rfl
@[simp] theorem putByte_fb (b : Byte) (s : State) : (putByte b s).fb = s.fb := rfl
@[simp] theorem putByte_wn (b : Byte) (s : State) : (putByte b s).wn = s.wn := rfl
@[simp] theorem putByte_rn (b : Byte) (s : State) : (putByte b s).rn = s.rn := rfl
@[simp] theorem putByte_stAcc (b : Byte) (s : State) : (putByte b s).stAcc = s.stAcc := rfl
@[simp] theorem putByte_pollCnt (b : Byte) (s : State) : (putByte b s).pollCnt = s.pollCnt := rfl
@[simp] theorem putByte_life (b : Byte) (s : State) : (putByte b s).life = s.life := rfl
@[simp] theorem putByte_cfgPos (b : Byte) (s : State) : (putByte b s).cfgPos = s.cfgPos := rfl
@[simp] theorem putByte_ufmPos (b : Byte) (s : State) : (putByte b s).ufmPos = s.ufmPos := rfl
@[simp] theorem putByte_erasePend (b : Byte) (s : State) : (putByte b s).erasePend = s.erasePend := rfl
@[simp] theorem putByte_seqViol (b : Byte) (s : State) : (putByte b s).seqViol = s.seqViol := rfl
@[simp] theorem putByte_xfail (b : Byte) (s : State) : (putByte b s).xfail = s.xfail := rfl
@[simp] theorem putByte_pbPayload (b : Byte) (s : State) : (putByte b s).pbPayload = s.pbPayload.setIfInBounds s.cnt.toNat b := rfl
@[simp] theorem putByte_cnt (b : Byte) (s : State) : (putByte b s).cnt = s.cnt + 1 := rfl
@[simp] theorem putByte_haveHi (b : Byte) (s : State) : (putByte b s).haveHi = s.haveHi := rfl
@[simp] theorem putByte_hiNib (b : Byte) (s : State) : (putByte b s).hiNib = s.hiNib := rfl
@[simp] theorem putByte_recFull (b : Byte) (s : State) : (putByte b s).recFull = s.recFull := rfl
@[simp] theorem putByte_recOvf (b : Byte) (s : State) : (putByte b s).recOvf = s.recOvf := rfl
@[simp] theorem putByte_pages (b : Byte) (s : State) : (putByte b s).pages = s.pages := rfl
@[simp] theorem putByte_nOdd (b : Byte) (s : State) : (putByte b s).nOdd = s.nOdd := rfl
@[simp] theorem putByte_nOvf (b : Byte) (s : State) : (putByte b s).nOvf = s.nOvf := rfl
@[simp] theorem putByte_r (b : Byte) (s : State) : (putByte b s).r = s.r := rfl
@[simp] theorem putByte_params (b : Byte) (s : State) : (putByte b s).params = s.params := rfl
@[simp] theorem putByte_cmdIn (b : Byte) (s : State) : (putByte b s).cmdIn = s.cmdIn := rfl
@[simp] theorem putByte_txIn (b : Byte) (s : State) : (putByte b s).txIn = s.txIn := rfl
@[simp] theorem putByte_hsIn (b : Byte) (s : State) : (putByte b s).hsIn = s.hsIn := rfl
@[simp] theorem putByte_rstIn (b : Byte) (s : State) : (putByte b s).rstIn = s.rstIn := rfl
@[simp] theorem putByte_trace (b : Byte) (s : State) : (putByte b s).trace = s.trace := rfl
@[simp] theorem putByte_draws (b : Byte) (s : State) : (putByte b s).draws = s.draws := rfl

end Sys2Proof.Machine
end

