-- ==== Sys2Proof/Laws/Supply.lean ====
section
/-! SUPPORT. The laws of `Supply`: what `pop` and `rest` give in each case, and how `Gives` splits, so that no proof unfolds them. -/

namespace Sys2Proof.Machine

variable {α : Type} (draw : Nat → Nat → α)

@[simp] theorem Supply.pop_listed (x : α) (items : List α) (later : Later α) :
    Supply.pop draw ⟨x :: items, later⟩ = some (x, ⟨items, later⟩) := rfl

@[simp] theorem Supply.pop_nothing : Supply.pop draw ⟨[], .nothing⟩ = none := rfl

@[simp] theorem Supply.pop_again (x : α) (items : List α) :
    Supply.pop draw ⟨[], .again x items⟩ = some (x, ⟨items, .again x items⟩) := rfl

@[simp] theorem Supply.pop_free (stream index : Nat) :
    Supply.pop draw ⟨[], .free stream index⟩ = some (draw stream index, ⟨[], .free stream (index + 1)⟩) := rfl

@[simp] theorem Supply.pop_push (x : α) (q : Supply α) : (q.push x).pop draw = some (x, q) := rfl

/-- An agent that presents nothing more has nothing listed and nothing to come. -/
theorem Supply.pop_eq_none (q : Supply α) : q.pop draw = none ↔ q = {} := by
  obtain ⟨now, later⟩ := q
  cases now <;> cases later <;> simp

theorem Supply.rest_of_pop {q left : Supply α} {x : α} (h : q.pop draw = some (x, left)) : q.rest draw = left := by
  unfold Supply.rest
  rw [h]

@[simp] theorem Supply.rest_nothing : Supply.rest draw ⟨[], .nothing⟩ = ⟨[], .nothing⟩ := rfl

@[simp] theorem Supply.rest_push (x : α) (q : Supply α) : (q.push x).rest draw = q := rfl

@[simp] theorem Supply.gives_nil (q left : Supply α) : q.Gives draw [] left ↔ q = left := Iff.rfl

@[simp] theorem Supply.gives_cons (q left : Supply α) (x : α) (items : List α) :
    q.Gives draw (x :: items) left ↔ ∃ q', q.pop draw = some (x, q') ∧ q'.Gives draw items left := Iff.rfl

theorem Supply.gives_append (q left : Supply α) (before after : List α) :
    q.Gives draw (before ++ after) left ↔ ∃ mid, q.Gives draw before mid ∧ mid.Gives draw after left := by
  induction before generalizing q with
  | nil => simp
  | cons x before ih =>
    simp only [List.cons_append, Supply.gives_cons, ih]
    constructor
    · rintro ⟨q', hp, mid, h1, h2⟩
      exact ⟨mid, ⟨q', hp, h1⟩, h2⟩
    · rintro ⟨mid, ⟨q', hp, h1⟩, h2⟩
      exact ⟨q', hp, mid, h1, h2⟩

/-- The listed items come first, in their order. -/
theorem Supply.gives_listed (items more : List α) (later : Later α) :
    Supply.Gives draw ⟨items ++ more, later⟩ items ⟨more, later⟩ := by
  induction items with
  | nil => rfl
  | cons x items ih => exact ⟨_, rfl, ih⟩

/-- All the listed items, and what comes later is left. -/
theorem Supply.gives_all_listed (items : List α) (later : Later α) : Supply.Gives draw ⟨items, later⟩ items ⟨[], later⟩ := by
  simpa using Supply.gives_listed draw items [] later

/-- A supply that repeats one item presents it as often as it is asked. -/
theorem Supply.gives_again (x : α) (n : Nat) :
    Supply.Gives draw ⟨[], .again x []⟩ (List.replicate n x) ⟨[], .again x []⟩ := by
  induction n with
  | zero => rfl
  | succ n ih => exact ⟨_, rfl, ih⟩

/-- What is presented leaves one remainder. -/
theorem Supply.gives_left_unique {q left left' : Supply α} {items : List α} (h : q.Gives draw items left)
    (h' : q.Gives draw items left') : left = left' := by
  induction items generalizing q with
  | nil => exact Eq.trans (Eq.symm h) h'
  | cons x items ih =>
    obtain ⟨p, hp, hg⟩ := h
    obtain ⟨p', hp', hg'⟩ := h'
    rw [hp, Option.some.injEq, Prod.mk.injEq] at hp'
    exact ih hg (hp'.2 ▸ hg')

end Sys2Proof.Machine
end

