-- ==== Sys2Proof/Laws/Ops.lean ====
section
/-! SUPPORT. One lemma per shared operation that says once everything it can do: a conditional operation is written as ONE record update, so
that a proof rewrites with it and never splits the operation again. -/

namespace Sys2Proof.Machine

/-! ### Buffers -/

theorem overlay_toList (frame : List Byte) (rest : Buf) (h : frame.length ≤ 20) :
    (overlay frame rest).toList = frame ++ rest.toList.drop frame.length := by
  have hlen : (frame ++ rest.toList.drop frame.length).length ≤ 20 := by
    simp only [List.length_append, List.length_drop, Vector.length_toList]; omega
  exact List.take_of_length_le hlen

/-- The bytes that are sent from `fb` are the frame that was written into it. -/
theorem overlay_take (frame : List Byte) (rest : Buf) (h : frame.length ≤ 20) :
    (overlay frame rest).toList.take frame.length = frame := by
  rw [overlay_toList frame rest h, List.take_left']
  rfl

/-- A 20-byte frame fills `fb`. -/
theorem overlay_full (buf rest : Buf) : overlay buf.toList rest = buf := by
  apply Vector.toList_inj.mp
  have h : (buf.toList).length = 20 := by simp
  rw [overlay_toList _ _ h.le, h]
  simp

theorem pb_toList (s : State) : (pb s).toList = pagePrefix s.params.ppOperand ++ s.pbPayload.toList := rfl

theorem frameBytes_length_le (i : Instr) : (frameBytes i).length ≤ 20 := by
  cases i <;> simp [frameBytes]

/-- The write count of a frame fits `wn`. -/
theorem wn_toNat (i : Instr) : (BitVec.ofNat 5 (frameBytes i).length).toNat = (frameBytes i).length := by
  have h := frameBytes_length_le i
  rw [BitVec.toNat_ofNat]
  exact Nat.mod_eq_of_lt (by omega)

/-- `loadFrame` leaves the frame of `i` in `fb`, `wn` and `rn`. -/
theorem loadFrame_holds (i : Instr) (s : State) : Holds i (loadFrame i s) := by
  refine ⟨?_, wn_toNat i, rfl⟩
  rw [loadFrame_wn, loadFrame_fb, wn_toNat, overlay_take _ _ (frameBytes_length_le i)]

/-- The byte of two nibbles, the first one high (spec/40_sequencer.md R138 d). -/
theorem hexByte_eq (hi lo : BitVec 4) : hexByte hi lo = hi ++ lo := by
  revert hi lo
  decide

/-- A payload position that `cnt` can name between steps is in the page buffer. -/
theorem payload_setIfInBounds (p : Payload) (k : Nat) (b : Byte) (h : k < 16) : p.setIfInBounds k b = p.set k b h := by
  apply Vector.toArray_inj.mp
  simp [Array.setIfInBounds, h]

/-! ### The conditional operations as one record update -/

theorem issueCheck_eq (i : Instr) (s : State) : issueCheck i s = { s with seqViol := s.seqViol || !legal i s } := by
  unfold issueCheck
  cases h : legal i s <;> simp

theorem recordReturn_eq (a : Answer) (s : State) :
    recordReturn a s =
      { s with
        trace := s.trace ++ [.tx (request s) a.status (readBytes (request s).rn a.bytes)]
        xfail := s.xfail || a.status != 0
        stAcc := if s.stAcc = 0 then a.status else s.stAcc } := by
  unfold recordReturn emit
  by_cases h : a.status = 0
  · have hacc : (if s.stAcc = 0 then a.status else s.stAcc) = s.stAcc := by
      split
      · rw [h]; exact Eq.symm ‹_›
      · rfl
    rw [hacc, h]; simp
  · have hb : (a.status != 0) = true := by simpa using h
    rw [if_neg h, hb, Bool.or_true]

/-- The lifecycle state that the effects of `i` leave. -/
def lifeAfter (i : Instr) (s : State) : Life :=
  if legal i s then (lifeNext (lifeClass i) s.life).getD s.life else s.life

theorem flagEffects_eq (i : Instr) (b : Byte) (s : State) :
    flagEffects i b s =
      { s with
        cfgPos := (flagEffects i b s).cfgPos
        ufmPos := (flagEffects i b s).ufmPos
        erasePend := (flagEffects i b s).erasePend } := by
  cases i <;> rfl

theorem applyEffects_eq (i : Instr) (b : Byte) (s : State) :
    applyEffects i b s =
      { s with
        life := lifeAfter i s
        cfgPos := (flagEffects i b s).cfgPos
        ufmPos := (flagEffects i b s).ufmPos
        erasePend := (flagEffects i b s).erasePend } := by
  unfold applyEffects moveLife lifeAfter
  cases h : legal i s
  · simp only [Bool.false_eq_true, if_false]; exact flagEffects_eq i b s
  · simp only [if_true]; rw [flagEffects_eq]

theorem effectsIfOk_eq (i : Instr) (a : Answer) (s : State) :
    effectsIfOk i a s =
      { s with
        life := if a.status = 0 then lifeAfter i s else s.life
        cfgPos := if a.status = 0 then (flagEffects i a.bytes[0] s).cfgPos else s.cfgPos
        ufmPos := if a.status = 0 then (flagEffects i a.bytes[0] s).ufmPos else s.ufmPos
        erasePend := if a.status = 0 then (flagEffects i a.bytes[0] s).erasePend else s.erasePend } := by
  unfold effectsIfOk
  by_cases h : a.status = 0
  · simp only [if_pos h]; exact applyEffects_eq i _ s
  · simp only [if_neg h]

theorem readyPoll_eq (a : Answer) (s : State) :
    readyPoll a s = { s with erasePend := s.erasePend && a.status != 0 } := by
  unfold readyPoll
  by_cases h : a.status = 0
  · rw [if_pos h, h]; simp
  · have hb : (a.status != 0) = true := by simpa using h
    rw [if_neg h, hb, Bool.and_true]

theorem dropDigit_eq (s : State) :
    dropDigit s =
      { s with
        trace := s.trace ++ (if s.haveHi then [.an .oddDigits] else [])
        nOdd := if s.haveHi then satInc s.nOdd else s.nOdd
        haveHi := false } := by
  unfold dropDigit emit
  cases s
  dsimp only
  split <;> simp_all

theorem noteOverflow_eq (s : State) :
    noteOverflow s =
      { s with
        trace := s.trace ++ (if s.recFull && !s.recOvf then [.an .overflow] else [])
        nOvf := if s.recFull && !s.recOvf then satInc s.nOvf else s.nOvf
        recOvf := s.recOvf || s.recFull } := by
  unfold noteOverflow emit
  cases s
  dsimp only
  split <;> simp_all

theorem flush_eq (s : State) :
    flush s =
      { s with
        seqViol := s.seqViol || !legal (.programPage 0 (pb s)) s
        pages := satInc s.pages
        cnt := 0
        recFull := true
        seq := .lhFlush } := by
  unfold flush
  rw [issueCheck_eq]

theorem startLoad_eq (s : State) :
    startLoad s =
      { loadFrame (.resetCfgAddr 0) (clearLoader s) with
        seqViol := s.seqViol || !legal (.resetCfgAddr 0) s
        seq := .lhReset } := by
  have h : legal (.resetCfgAddr 0) (clearLoader s) = legal (.resetCfgAddr 0) s := rfl
  unfold startLoad
  rw [issueCheck_eq, h]
  rfl

theorem acceptOrdered_eq (i : Instr) (start : State → State) (s : State) :
    acceptOrdered i start s =
      if !legal i s && s.params.harden then refuse (opsel i) .order { s with seqViol := true }
      else start { s with seqViol := s.seqViol || !legal i s, curOp := opsel i, curArg := argOf i, stAcc := 0 } := by
  unfold acceptOrdered
  cases h : legal i s <;> cases h' : s.params.harden <;> simp

/-! ### What legality depends on -/

/-- `legal` reads `erase_pend`, `life`, `cfg_pos` and `ufm_pos`, and nothing else of the state (R132). -/
theorem legal_congr (i : Instr) (s t : State) (he : t.erasePend = s.erasePend) (hl : t.life = s.life)
    (hc : t.cfgPos = s.cfgPos) (hu : t.ufmPos = s.ufmPos) : legal i t = legal i s := by
  cases i <;> simp [legal, frameLegal, ptrOk, he, hl, hc, hu]

/-- The buffer of a page plays no part in its legality. -/
theorem legal_programPage (arg arg' : Word) (buf buf' : Buf) (s : State) :
    legal (.programPage arg buf) s = legal (.programPage arg' buf') s := rfl

/-! ### Saturation -/

theorem satInc_toNat {w : Nat} (x : BitVec w) (h : x.toNat < 2 ^ w - 1) : (satInc x).toNat = x.toNat + 1 := by
  have hne : x ≠ BitVec.allOnes w := by
    intro he
    rw [he, BitVec.toNat_allOnes] at h
    omega
  have hw : w ≠ 0 := by
    rintro rfl
    simp at h
  have h1 : (1 : BitVec w).toNat = 1 := by
    simpa using Nat.mod_eq_of_lt (Nat.one_lt_two_pow hw)
  unfold satInc
  rw [if_neg hne, BitVec.toNat_add, h1]
  exact Nat.mod_eq_of_lt (by omega)

/-- A counter at its largest value stays there. -/
theorem satInc_allOnes (w : Nat) : satInc (BitVec.allOnes w) = BitVec.allOnes w := by simp [satInc]

/-! ### Progress: every operation answers a next state -/

/-- The next state of an operation (spec/60_exceptions.md R260: none stops the block). -/
def execNext (i : Instr) (s : State) : State :=
  match exec i s with
  | .next t => t
  | .fault _ => s
  | .refused _ => s

theorem exec_eq_next (i : Instr) (s : State) : exec i s = .next (execNext i s) := by
  cases i <;> first | rfl | (unfold execNext exec execWaitBusy; cases s.seq <;> rfl) | (unfold execNext exec execLoadHex; cases s.seq <;> rfl)

end Sys2Proof.Machine
end

