-- ==== Sys2Proof/Laws/PerInstr.lean ====
section
/-! SUPPORT. Statements made once per constructor of Instr. -/

/-- The form of an operation's transaction: the op select code is defined (spec/30_encoding.md R100), and a wire command moves one of the pairs
of sizes of spec/20_memory.md R68. -/
def Sys2Proof.Laws.FrameForm.Statement (i : Sys2Proof.Instr) : Prop :=
  (Sys2Proof.Machine.opsel i).toNat ≤ 22 ∧
    (i.isWire = true →
      ((Sys2Proof.Machine.frameBytes i).length, (Sys2Proof.Machine.readLen i).toNat) ∈ Sys2Proof.Machine.txSizes)

namespace Sys2Proof.Laws

open Sys2Proof.Machine

theorem FrameForm.readId (arg : Word) : FrameForm.Statement (.readId arg) :=
  ⟨by simp [opsel], fun _ => by simp [frameBytes, readLen, txSizes]⟩

theorem FrameForm.readUsercode (arg : Word) : FrameForm.Statement (.readUsercode arg) :=
  ⟨by simp [opsel], fun _ => by simp [frameBytes, readLen, txSizes]⟩

theorem FrameForm.readStatus (arg : Word) : FrameForm.Statement (.readStatus arg) :=
  ⟨by simp [opsel], fun _ => by simp [frameBytes, readLen, txSizes]⟩

theorem FrameForm.readFeatureBits (arg : Word) : FrameForm.Statement (.readFeatureBits arg) :=
  ⟨by simp [opsel], fun _ => by simp [frameBytes, readLen, txSizes]⟩

theorem FrameForm.readFeatureRow (arg : Word) : FrameForm.Statement (.readFeatureRow arg) :=
  ⟨by simp [opsel], fun _ => by simp [frameBytes, readLen, txSizes]⟩

theorem FrameForm.readOtp (arg : Word) : FrameForm.Statement (.readOtp arg) :=
  ⟨by simp [opsel], fun _ => by simp [frameBytes, readLen, txSizes]⟩

theorem FrameForm.readFlash (arg : Word) : FrameForm.Statement (.readFlash arg) :=
  ⟨by simp [opsel], fun _ => by simp [frameBytes, readLen, txSizes]⟩

theorem FrameForm.readUfm (arg : Word) : FrameForm.Statement (.readUfm arg) :=
  ⟨by simp [opsel], fun _ => by simp [frameBytes, readLen, txSizes]⟩

theorem FrameForm.eraseUfm (arg : Word) : FrameForm.Statement (.eraseUfm arg) :=
  ⟨by simp [opsel], fun _ => by simp [frameBytes, readLen, txSizes]⟩

theorem FrameForm.erase (arg : Word) : FrameForm.Statement (.erase arg) :=
  ⟨by simp [opsel], fun _ => by simp [frameBytes, readLen, txSizes]⟩

theorem FrameForm.enableCfgTransparent (arg : Word) : FrameForm.Statement (.enableCfgTransparent arg) :=
  ⟨by simp [opsel], fun _ => by simp [frameBytes, readLen, txSizes]⟩

theorem FrameForm.enableCfgOffline (arg : Word) : FrameForm.Statement (.enableCfgOffline arg) :=
  ⟨by simp [opsel], fun _ => by simp [frameBytes, readLen, txSizes]⟩

theorem FrameForm.isBusy (arg : Word) : FrameForm.Statement (.isBusy arg) :=
  ⟨by simp [opsel], fun _ => by simp [frameBytes, readLen, txSizes]⟩

theorem FrameForm.resetCfgAddr (arg : Word) : FrameForm.Statement (.resetCfgAddr arg) :=
  ⟨by simp [opsel], fun _ => by simp [frameBytes, readLen, txSizes]⟩

theorem FrameForm.resetUfmAddr (arg : Word) : FrameForm.Statement (.resetUfmAddr arg) :=
  ⟨by simp [opsel], fun _ => by simp [frameBytes, readLen, txSizes]⟩

theorem FrameForm.setCfgAddr (arg : Word) : FrameForm.Statement (.setCfgAddr arg) :=
  ⟨by simp [opsel], fun _ => by simp [frameBytes, readLen, txSizes]⟩

theorem FrameForm.setUfmAddr (arg : Word) : FrameForm.Statement (.setUfmAddr arg) :=
  ⟨by simp [opsel], fun _ => by simp [frameBytes, readLen, txSizes]⟩

theorem FrameForm.programPage (arg : Word) (buf : Buf) : FrameForm.Statement (.programPage arg buf) :=
  ⟨by simp [opsel], fun _ => by simp [frameBytes, readLen, txSizes]⟩

theorem FrameForm.programDone (arg : Word) : FrameForm.Statement (.programDone arg) :=
  ⟨by simp [opsel], fun _ => by simp [frameBytes, readLen, txSizes]⟩

theorem FrameForm.refresh (arg : Word) : FrameForm.Statement (.refresh arg) :=
  ⟨by simp [opsel], fun _ => by simp [frameBytes, readLen, txSizes]⟩

theorem FrameForm.wakeup (arg : Word) : FrameForm.Statement (.wakeup arg) :=
  ⟨by simp [opsel], fun _ => by simp [frameBytes, readLen, txSizes]⟩

theorem FrameForm.waitBusy (arg : Word) : FrameForm.Statement (.waitBusy arg) :=
  ⟨by simp [opsel], fun h => by simp [Instr.isWire] at h⟩

theorem FrameForm.loadHex (arg : Word) : FrameForm.Statement (.loadHex arg) :=
  ⟨by simp [opsel], fun h => by simp [Instr.isWire] at h⟩

/-- The family for every instruction. -/
theorem frameForm_all (i : Instr) : FrameForm.Statement i := by
  cases i
  · exact FrameForm.readId _
  · exact FrameForm.readUsercode _
  · exact FrameForm.readStatus _
  · exact FrameForm.readFeatureBits _
  · exact FrameForm.readFeatureRow _
  · exact FrameForm.readOtp _
  · exact FrameForm.readFlash _
  · exact FrameForm.readUfm _
  · exact FrameForm.eraseUfm _
  · exact FrameForm.erase _
  · exact FrameForm.enableCfgTransparent _
  · exact FrameForm.enableCfgOffline _
  · exact FrameForm.isBusy _
  · exact FrameForm.resetCfgAddr _
  · exact FrameForm.resetUfmAddr _
  · exact FrameForm.setCfgAddr _
  · exact FrameForm.setUfmAddr _
  · exact FrameForm.programPage _ _
  · exact FrameForm.programDone _
  · exact FrameForm.refresh _
  · exact FrameForm.wakeup _
  · exact FrameForm.waitBusy _
  · exact FrameForm.loadHex _

end Sys2Proof.Laws
end

