-- ==== Sys2Proof/Laws/Step.lean ====
section
/-! SUPPORT. What one step can do, said once: `step_eq` rewrites a step to `nextState`, a match on `seq` over the shared operations, so that a
proof about every step is one case per step of the spec and never unfolds `fetch`, `exec` or a meaning. -/

namespace Sys2Proof.Machine

/-- What an accepted command starts (spec/40_sequencer.md R130). -/
def startOf (i : Instr) : State → State :=
  match i with
  | .readId arg => startXact (.readId arg)
  | .readUsercode arg => startXact (.readUsercode arg)
  | .readStatus arg => startXact (.readStatus arg)
  | .readFeatureBits arg => startXact (.readFeatureBits arg)
  | .readFeatureRow arg => startXact (.readFeatureRow arg)
  | .readOtp arg => startXact (.readOtp arg)
  | .readFlash arg => startXact (.readFlash arg)
  | .readUfm arg => startXact (.readUfm arg)
  | .eraseUfm arg => startXact (.eraseUfm arg)
  | .erase flags => startXact (.erase flags)
  | .enableCfgTransparent arg => startXact (.enableCfgTransparent arg)
  | .enableCfgOffline arg => startXact (.enableCfgOffline arg)
  | .isBusy arg => startXact (.isBusy arg)
  | .resetCfgAddr arg => startXact (.resetCfgAddr arg)
  | .resetUfmAddr arg => startXact (.resetUfmAddr arg)
  | .setCfgAddr page => startXact (.setCfgAddr page)
  | .setUfmAddr page => startXact (.setUfmAddr page)
  | .programPage arg buf => startXact (.programPage arg buf)
  | .programDone arg => startXact (.programDone arg)
  | .refresh arg => startXact (.refresh arg)
  | .wakeup arg => startXact (.wakeup arg)
  | .waitBusy _ => startPoll
  | .loadHex _ => startLoad

/-- An operation is a wire command or one of the two composites. -/
theorem wire_or_composite (i : Instr) : i.isWire = true ∨ (∃ arg, i = .waitBusy arg) ∨ ∃ arg, i = .loadHex arg := by
  cases i <;> first | exact .inl rfl | exact .inr (.inl ⟨_, rfl⟩) | exact .inr (.inr ⟨_, rfl⟩)

theorem startOf_wire (i : Instr) (hw : i.isWire = true) : startOf i = startXact i := by
  cases i <;> first | rfl | (simp only [Instr.isWire, Bool.false_eq_true] at hw)

/-- A wire command's meaning is the shared template (spec/40_sequencer.md R140). -/
theorem exec_wire (i : Instr) (s : State) (hw : i.isWire = true) : exec i s = .next (simpleOp i s) := by
  cases i <;> first | rfl | (simp only [Instr.isWire, Bool.false_eq_true] at hw)

/-- The accept step (R130), for any operation. -/
theorem exec_ready (i : Instr) (s : State) (h : s.seq = .ready) : exec i s = .next (accept i (startOf i) s) := by
  rcases wire_or_composite i with hw | ⟨arg, rfl⟩ | ⟨arg, rfl⟩
  · rw [exec_wire i s hw, startOf_wire i hw]; simp only [simpleOp, h]
  · simp only [exec, execWaitBusy, startOf, h]
  · simp only [exec, execLoadHex, startOf, h]

/-- The return step of a simple operation in flight (spec/40_sequencer.md R137). -/
theorem exec_xact (i : Instr) (s : State) (h : s.seq = .xact) (hw : i.isWire = true) (hc : isCurrent i s = true) :
    exec i s = .next (onReturn (xactReturn i) s) := by
  rw [exec_wire i s hw]
  simp only [simpleOp, h, hc, if_true]

/-- A composite operation takes no return in XACT. -/
theorem exec_xact_composite (i : Instr) (s : State) (h : s.seq = .xact) (hw : i.isWire = false) : exec i s = .next s := by
  rcases wire_or_composite i with hw' | ⟨arg, rfl⟩ | ⟨arg, rfl⟩
  · rw [hw] at hw'; simp at hw'
  · simp only [exec, execWaitBusy, h]
  · simp only [exec, execLoadHex, h]

/-- A command that decodes is the one of its own code and operand (spec/30_encoding.md R100). -/
theorem decode_selects (c : Cmd) (i : Instr) (h : decode c = .ok i) : c.op = opsel i ∧ c.arg = argOf i := by
  obtain ⟨op, arg, buf⟩ := c
  have hop : op = BitVec.ofNat 5 op.toNat := by simp
  unfold decode at h
  simp only at h
  split at h <;> simp only [Except.ok.injEq, reduceCtorEq] at h <;> subst h <;> exact ⟨by rw [hop]; simp_all [opsel], rfl⟩

theorem inFlight_isCurrent (i : Instr) (s : State) (h : inFlight s = .ok i) : isCurrent i s = true := by
  obtain ⟨h1, h2⟩ := decode_selects _ i h
  simp only at h1 h2
  simp [isCurrent, h1, h2]

/-- The block's part of a step, when no reset comes first. -/
def nextState (s : State) : State :=
  match s.seq with
  | .ready =>
    match s.cmdIn.pop freeCmd with
    | none => s
    | some (c, rest) =>
      match decode c with
      | .ok i => accept i (startOf i) { s with cmdIn := rest }
      | .error _ => refuse c.op .illegalOp { s with cmdIn := rest }
  | .xact =>
    match inFlight s with
    | .ok i => if i.isWire then onReturn (xactReturn i) s else s
    | .error _ => s
  | .poll => onReturn pollReturn s
  | .lhReset => onReturn resetReturn s
  | .lhStream => onToken s
  | .lhFlush => onReturn flushReturn s

/-! One equation per state of the sequencer. -/

theorem nextState_idle (s : State) (h : s.seq = .ready) (hc : s.cmdIn.pop freeCmd = none) : nextState s = s := by
  simp only [nextState, h, hc]

theorem nextState_accept (s : State) (c : Cmd) (rest : Supply Cmd) (i : Instr) (h : s.seq = .ready) (hc : s.cmdIn.pop freeCmd = some (c, rest))
    (hd : decode c = .ok i) : nextState s = accept i (startOf i) { s with cmdIn := rest } := by
  simp only [nextState, h, hc, hd]

theorem nextState_illegal (s : State) (c : Cmd) (rest : Supply Cmd) (e : Reject) (h : s.seq = .ready) (hc : s.cmdIn.pop freeCmd = some (c, rest))
    (hd : decode c = .error e) : nextState s = refuse c.op .illegalOp { s with cmdIn := rest } := by
  simp only [nextState, h, hc, hd]

theorem nextState_xact (s : State) (i : Instr) (h : s.seq = .xact) (hd : inFlight s = .ok i) (hw : i.isWire = true) :
    nextState s = onReturn (xactReturn i) s := by
  simp only [nextState, h, hd, hw, if_true]

theorem nextState_xact_composite (s : State) (i : Instr) (h : s.seq = .xact) (hd : inFlight s = .ok i) (hw : i.isWire = false) :
    nextState s = s := by
  simp only [nextState, h, hd, hw, Bool.false_eq_true, if_false]

theorem nextState_xact_undefined (s : State) (e : Reject) (h : s.seq = .xact) (hd : inFlight s = .error e) : nextState s = s := by
  simp only [nextState, h, hd]

theorem nextState_poll (s : State) (h : s.seq = .poll) : nextState s = onReturn pollReturn s := by simp only [nextState, h]

theorem nextState_lhReset (s : State) (h : s.seq = .lhReset) : nextState s = onReturn resetReturn s := by
  simp only [nextState, h]

theorem nextState_lhStream (s : State) (h : s.seq = .lhStream) : nextState s = onToken s := by simp only [nextState, h]

theorem nextState_lhFlush (s : State) (h : s.seq = .lhFlush) : nextState s = onReturn flushReturn s := by
  simp only [nextState, h]

/-- The block waits for the caller, or (in a state that no run reaches) has no operation to end. -/
def NothingToDo (s : State) : Prop :=
  s.seq = .ready ∧ s.cmdIn.pop freeCmd = none ∨ s.seq = .xact ∧ ∀ i, inFlight s = .ok i → i.isWire = false

theorem nextState_nothing (s : State) (h : NothingToDo s) : nextState s = s := by
  rcases h with ⟨h, hc⟩ | ⟨h, hw⟩
  · exact nextState_idle s h hc
  · cases hd : inFlight s with
    | ok i => exact nextState_xact_composite s i h hd (hw i hd)
    | error e => exact nextState_xact_undefined s e h hd

/-- What the block can do in a step that is no reset: one alternative per step of spec/40_sequencer.md R141. -/
theorem nextState_cases (s : State) :
    (NothingToDo s ∧ nextState s = s) ∨
    (∃ c rest i, s.seq = .ready ∧ s.cmdIn.pop freeCmd = some (c, rest) ∧ decode c = .ok i ∧
      nextState s = accept i (startOf i) { s with cmdIn := rest }) ∨
    (∃ c rest e, s.seq = .ready ∧ s.cmdIn.pop freeCmd = some (c, rest) ∧ decode c = .error e ∧ nextState s = refuse c.op .illegalOp { s with cmdIn := rest }) ∨
    (∃ i, s.seq = .xact ∧ inFlight s = .ok i ∧ i.isWire = true ∧ nextState s = onReturn (xactReturn i) s) ∨
    (s.seq = .poll ∧ nextState s = onReturn pollReturn s) ∨
    (s.seq = .lhReset ∧ nextState s = onReturn resetReturn s) ∨
    (s.seq = .lhStream ∧ nextState s = onToken s) ∨
    (s.seq = .lhFlush ∧ nextState s = onReturn flushReturn s) := by
  obtain ⟨q, h⟩ : ∃ q, s.seq = q := ⟨_, rfl⟩
  cases q
  · obtain ⟨next, hc⟩ : ∃ next, s.cmdIn.pop freeCmd = next := ⟨_, rfl⟩
    cases next with
    | none => exact .inl ⟨.inl ⟨h, hc⟩, nextState_idle s h hc⟩
    | some taken =>
      obtain ⟨c, rest⟩ := taken
      cases hd : decode c with
      | ok i => exact .inr (.inl ⟨c, rest, i, h, hc, hd, nextState_accept s c rest i h hc hd⟩)
      | error e => exact .inr (.inr (.inl ⟨c, rest, e, h, hc, hd, nextState_illegal s c rest e h hc hd⟩))
  · cases hd : inFlight s with
    | ok i =>
      cases hw : i.isWire
      · exact .inl ⟨.inr ⟨h, fun j hj => by rw [hd, Except.ok.injEq] at hj; rw [← hj]; exact hw⟩, nextState_xact_composite s i h hd hw⟩
      · exact .inr (.inr (.inr (.inl ⟨i, h, rfl, hw, nextState_xact s i h hd hw⟩)))
    | error e => exact .inl ⟨.inr ⟨h, fun i hi => by rw [hd] at hi; simp at hi⟩, nextState_xact_undefined s e h hd⟩
  · exact .inr (.inr (.inr (.inr (.inl ⟨h, nextState_poll s h⟩))))
  · exact .inr (.inr (.inr (.inr (.inr (.inl ⟨h, nextState_lhReset s h⟩)))))
  · exact .inr (.inr (.inr (.inr (.inr (.inr (.inl ⟨h, nextState_lhStream s h⟩))))))
  · exact .inr (.inr (.inr (.inr (.inr (.inr (.inr ⟨h, nextState_lhFlush s h⟩))))))

theorem stepBlock_eq (s : State) : stepBlock s = .next (nextState s) := by
  unfold stepBlock nextState fetch
  cases h : s.seq
  · cases hc : s.cmdIn.pop freeCmd with
    | none => rfl
    | some taken =>
      obtain ⟨c, rest⟩ := taken
      cases hd : decode c with
      | ok i => simp only [hd]; exact exec_ready i _ rfl
      | error e => simp only [hd]
  · cases hd : inFlight s with
    | ok i =>
      cases hw : i.isWire
      · simpa only [hd, hw, Bool.false_eq_true, if_false] using exec_xact_composite i s h hw
      · simpa only [hd, hw, if_true] using exec_xact i s h hw (inFlight_isCurrent i s hd)
    | error e => rfl
  all_goals simp only [exec, execWaitBusy, execLoadHex, h]

/-- One step of the machine. -/
theorem step_eq (s : State) :
    step s = .next (if rstNow s then rst (useRstSample s) else nextState (useRstSample s)) := by
  unfold step
  split
  · rfl
  · exact stepBlock_eq _

end Sys2Proof.Machine
end

