-- ==== Sys2Proof/Tests/Slice0.lean ====
section
/-! SUPPORT. Tests. Every expected value is from spec/: the frame table of spec/30_encoding.md R91, the operand rules, and the vectors V<n> of
spec/95_test_vectors.md. After them, for every obligation with hypotheses, a witness that meets all of them. -/

namespace Sys2Proof.Tests

open Sys2Proof.Machine

/-! ### WellFormed refuses ill-formed terms -/

theorem test_page_that_does_not_fit_is_ill_formed :
    (Instr.setCfgAddr 0x10000).pageFits = false ∧ (Instr.setUfmAddr 0xFFFFFFFF).pageFits = false ∧
    (Instr.setCfgAddr 0xFFFF).pageFits = true ∧ (Instr.setCfgAddr 0x10000).wellFormed 0 = false := by decide

theorem test_buffer_with_another_prefix_is_ill_formed :
    (Instr.programPage 0 zeroBuf).bufPrefixOk 0 = false ∧ (Instr.programPage 0 (zeroBuf.set 0 0x70)).bufPrefixOk 1 = false ∧
    (Instr.programPage 0 (zeroBuf.set 0 0x70)).bufPrefixOk 0 = true ∧ (Instr.programPage 0 zeroBuf).wellFormed 0 = false := by decide

theorem test_operand_bits_that_no_frame_carries :
    (Instr.erase 0x00100000).argCarried = false ∧ (Instr.erase 0x000F0000).argCarried = true ∧
    (Instr.readId 1).argCarried = false ∧ (Instr.setUfmAddr 0x12345).argCarried = false := by decide

theorem test_composites_are_no_wire_commands :
    (Instr.waitBusy 0).isWire = false ∧ (Instr.loadHex 0).isWire = false ∧ (Instr.wakeup 0).isWire = true := by decide

/-! ### Decoding: the frames of R91, byte by byte (V1 to V21, V30 to V37) -/

theorem test_decode_read_frames :
    decodeFrame 0 [0xE0, 0x00, 0x00, 0x00] = .ok (.readId 0, []) ∧
    decodeFrame 0 [0xC0, 0x00, 0x00, 0x00] = .ok (.readUsercode 0, []) ∧
    decodeFrame 0 [0x3C, 0x00, 0x00, 0x00] = .ok (.readStatus 0, []) ∧
    decodeFrame 0 [0xFB, 0x00, 0x00, 0x00] = .ok (.readFeatureBits 0, []) ∧
    decodeFrame 0 [0xE7, 0x00, 0x00, 0x00] = .ok (.readFeatureRow 0, []) ∧
    decodeFrame 0 [0xFA, 0x00, 0x00, 0x00] = .ok (.readOtp 0, []) ∧
    decodeFrame 0 [0x73, 0x00, 0x00, 0x00] = .ok (.readFlash 0, []) ∧
    decodeFrame 0 [0xCA, 0x00, 0x00, 0x00] = .ok (.readUfm 0, []) := ⟨rfl, rfl, rfl, rfl, rfl, rfl, rfl, rfl⟩

theorem test_decode_fixed_write_frames :
    decodeFrame 0 [0xCB, 0x00, 0x00, 0x00] = .ok (.eraseUfm 0, []) ∧
    decodeFrame 0 [0x74, 0x08, 0x00] = .ok (.enableCfgTransparent 0, []) ∧
    decodeFrame 0 [0xC6, 0x08, 0x00] = .ok (.enableCfgOffline 0, []) ∧
    decodeFrame 0 [0xF0, 0x00, 0x00, 0x00] = .ok (.isBusy 0, []) ∧
    decodeFrame 0 [0x46, 0x00, 0x00, 0x00] = .ok (.resetCfgAddr 0, []) ∧
    decodeFrame 0 [0x47, 0x00, 0x00, 0x00] = .ok (.resetUfmAddr 0, []) ∧
    decodeFrame 0 [0x5E, 0x00, 0x00, 0x00] = .ok (.programDone 0, []) ∧
    decodeFrame 0 [0x79, 0x00, 0x00] = .ok (.refresh 0, []) ∧
    decodeFrame 0 [0xFF, 0xFF, 0xFF, 0xFF] = .ok (.wakeup 0, []) := ⟨rfl, rfl, rfl, rfl, rfl, rfl, rfl, rfl, rfl⟩

theorem test_decode_operand_frames :
    decodeFrame 0 [0x0E, 0x0C, 0x00, 0x00] = .ok (.erase 0x000C0000, []) ∧
    decodeFrame 0 [0x0E, 0x0F, 0x00, 0x00, 0xAA] = .ok (.erase 0x000F0000, [0xAA]) ∧
    decodeFrame 0 [0xB4, 0x00, 0x00, 0x00, 0x00, 0x00, 0x01, 0x23] = .ok (.setCfgAddr 0x0123, []) ∧
    decodeFrame 0 [0xB4, 0x00, 0x00, 0x00, 0x40, 0x00, 0x01, 0x23] = .ok (.setUfmAddr 0x0123, []) ∧
    decodeFrame 0 [0xB4, 0x00, 0x00, 0x00, 0x00, 0x00, 0xFF, 0xFF] = .ok (.setCfgAddr 0xFFFF, []) := ⟨rfl, rfl, rfl, rfl, rfl⟩

/-- V18, and V43's prefix. -/
theorem test_decode_page_frames :
    decodeFrame 0 [0x70, 0, 0, 0, 0, 1, 2, 3, 4, 5, 6, 7, 8, 9, 10, 11, 12, 13, 14, 15] =
      .ok (.programPage 0 #v[0x70, 0, 0, 0, 0, 1, 2, 3, 4, 5, 6, 7, 8, 9, 10, 11, 12, 13, 14, 15], []) ∧
    decodeFrame 1 [0x70, 0, 0, 1, 0, 1, 2, 3, 4, 5, 6, 7, 8, 9, 10, 11, 12, 13, 14, 15] =
      .ok (.programPage 0 #v[0x70, 0, 0, 1, 0, 1, 2, 3, 4, 5, 6, 7, 8, 9, 10, 11, 12, 13, 14, 15], []) := ⟨rfl, rfl⟩

theorem test_decode_table_words :
    decodeTableWord 32 0x3C000000 = some (.readStatus 0) ∧ decodeTableWord 24 0x790000 = some (.refresh 0) ∧
    decodeTableWord 64 0xB40000004000FFFF = some (.setUfmAddr 0xFFFF) ∧
    decodeTableWord 8 0b10101 = some (.waitBusy 0) ∧ decodeTableWord 8 0b10110 = some (.loadHex 0) ∧
    decodeTableWord 8 23 = none ∧ decodeTableWord 32 0x3C000001 = none := ⟨rfl, rfl, rfl, rfl, rfl, rfl, rfl⟩

/-- R101, R108, R110: rejected by name, with no fall to a neighbour. -/
theorem test_decode_rejects :
    decode { op := 23, arg := 0, buf := zeroBuf } = .error (.reservedOp 23) ∧
    decode { op := 31, arg := 0xFFFFFFFF, buf := zeroBuf } = .error (.reservedOp 31) ∧
    decodeFrame 0 [] = .error .empty ∧
    decodeFrame 0 [0x00, 0, 0, 0] = .error (.unknownOpcode 0x00) ∧
    decodeFrame 0 [0xE0, 0, 0] = .error (.truncated 0xE0) ∧
    decodeFrame 0 [0xE0, 0, 0, 1] = .error (.fixedBits 0xE0) ∧
    decodeFrame 0 [0x0E, 0x10, 0, 0] = .error (.fixedBits 0x0E) ∧
    decodeFrame 0 [0xB4, 0, 0, 0x40, 0, 0, 0, 0] = .error (.fixedBits 0xB4) := ⟨rfl, rfl, rfl, rfl, rfl, rfl, rfl, rfl⟩

/-- R100: the op select codes of the table's last row and first row. -/
theorem test_decode_commands :
    decode { op := 0, arg := 9, buf := zeroBuf } = .ok (.readId 9) ∧ decode { op := 12, arg := 0, buf := zeroBuf } = .ok (.isBusy 0) ∧
    decode { op := 17, arg := 0, buf := zeroBuf } = .ok (.programPage 0 zeroBuf) ∧
    decode { op := 22, arg := 0, buf := zeroBuf } = .ok (.loadHex 0) := ⟨rfl, rfl, rfl, rfl⟩

/-- V31, V32, V33a, V33b, V40. -/
theorem test_operand_assembly :
    frameBytes (.erase 0xFFFFFFFF) = [0x0E, 0x0F, 0, 0] ∧ frameBytes (.erase 0x00100000) = [0x0E, 0x00, 0, 0] ∧
    frameBytes (.erase 0x00010000) = [0x0E, 0x01, 0, 0] ∧ frameBytes (.erase 0x00080000) = [0x0E, 0x08, 0, 0] ∧
    frameBytes (.erase 0x0000FFFF) = [0x0E, 0x00, 0, 0] ∧
    frameBytes (.setCfgAddr 0x12345) = [0xB4, 0, 0, 0, 0, 0, 0x23, 0x45] := by decide

/-! ### One step of each operation -/

/-- An answer whose first byte is `b`. -/
def answer (status : Word) (b : Byte) : Answer := { status := status, bytes := zeroPayload.set 0 b }

/-- A state with the shadow state and parameters that the vectors write. -/
def shadow (life : Life) (cfg ufm erase harden : Bool) : State :=
  { State.reset with life := life, cfgPos := cfg, ufmPos := ufm, erasePend := erase, params := { harden := harden } }

/-- `s` with the transaction of `i` pending and one answer for it. -/
def pending (i : Instr) (a : Answer) (s : State) : State :=
  { s with
    seq := .xact
    curOp := opsel i
    curArg := argOf i
    fb := overlay (frameBytes i) zeroBuf
    wn := BitVec.ofNat 5 (frameBytes i).length
    rn := readLen i
    txIn := { now := [a] } }

/-- What the accept vectors say: the pending frame with its read length, and `seq_viol`. -/
def sent (t : State) : Seq × List Byte × BitVec 5 × Bool := (t.seq, (request t).w, (request t).rn, t.seqViol)

/-- What the lifecycle vectors say of the end. -/
def shadowEnd (t : State) : Seq × Life × Bool × Bool × Bool × Bool :=
  (t.seq, t.life, t.cfgPos, t.ufmPos, t.erasePend, t.xfail)

/-- V1 and V44. -/
theorem test_read_id_accept : sent (execNext (.readId 0) State.reset) = (.xact, [0xE0, 0, 0, 0], 4, false) := by decide

theorem test_read_id_return :
    (execNext (.readId 0) (pending (.readId 0) ⟨0, #v[0x01, 0x2B, 0xB0, 0x43, 9, 9, 9, 9, 9, 9, 9, 9, 9, 9, 9, 9]⟩ State.reset)).r =
      { op := 0, len := 4, data := #v[0x01, 0x2B, 0xB0, 0x43, 0, 0, 0, 0, 0, 0, 0, 0, 0, 0, 0, 0] } := by decide

/-- V2. -/
theorem test_read_usercode_accept : sent (execNext (.readUsercode 0) State.reset) = (.xact, [0xC0, 0, 0, 0], 4, false) := by decide

/-- R161's example. -/
theorem test_read_usercode_return :
    (execNext (.readUsercode 0) (pending (.readUsercode 0) ⟨0, #v[0xDE, 0xAD, 0xBE, 0xEF, 0, 0, 0, 0, 0, 0, 0, 0, 0, 0, 0, 0]⟩
      State.reset)).r.data.toList.take 4 = [0xDE, 0xAD, 0xBE, 0xEF] := by decide

/-- V3. -/
theorem test_read_status_accept : sent (execNext (.readStatus 0) State.reset) = (.xact, [0x3C, 0, 0, 0], 4, false) := by decide

/-- V47; and R162: a byte with bit 7 clear does not clear `erase_pend`. -/
theorem test_read_status_return :
    let t := execNext (.readStatus 0) (pending (.readStatus 0) (answer 3 0) (shadow .erasing true false true false))
    (t.r.status, t.r.len, t.r.busy, t.xfail, t.erasePend) = (3, 4, false, true, true) := by decide

/-- V4. -/
theorem test_read_feature_bits_accept :
    sent (execNext (.readFeatureBits 0) State.reset) = (.xact, [0xFB, 0, 0, 0], 2, false) := by decide

/-- V46. -/
theorem test_read_feature_bits_return :
    (execNext (.readFeatureBits 0) (pending (.readFeatureBits 0) ⟨0, #v[4, 0x20, 7, 7, 7, 7, 7, 7, 7, 7, 7, 7, 7, 7, 7, 7]⟩
      State.reset)).r.data.toList = [4, 0x20, 0, 0, 0, 0, 0, 0, 0, 0, 0, 0, 0, 0, 0, 0] := by decide

/-- V5. -/
theorem test_read_feature_row_accept :
    sent (execNext (.readFeatureRow 0) State.reset) = (.xact, [0xE7, 0, 0, 0], 8, false) := by decide

/-- R164's example. -/
theorem test_read_feature_row_return :
    let t := execNext (.readFeatureRow 0)
      (pending (.readFeatureRow 0) ⟨0, #v[0, 1, 2, 3, 4, 5, 6, 7, 8, 9, 10, 11, 12, 13, 14, 15]⟩ State.reset)
    (t.r.len, t.r.data.toList) = (8, [0, 1, 2, 3, 4, 5, 6, 7, 0, 0, 0, 0, 0, 0, 0, 0]) := by decide

/-- V6. -/
theorem test_read_otp_accept : sent (execNext (.readOtp 0) State.reset) = (.xact, [0xFA, 0, 0, 0], 1, false) := by decide

/-- V45: bit 7 is no busy flag. -/
theorem test_read_otp_return :
    let t := execNext (.readOtp 0) (pending (.readOtp 0) (answer 0 0xFF) State.reset)
    (t.r.len, t.r.data[0], t.r.busy) = (1, 0xFF, false) := by decide

/-- V48 and V49. -/
theorem test_read_flash_without_pointer :
    sent (execNext (.readFlash 0) State.reset) = (.xact, [0x73, 0, 0, 0], 16, true) ∧
    let t := execNext (.readFlash 0) (shadow .idle false false false true)
    (t.seq, t.r.op, t.r.err, t.seqViol, framesSent t) = (.ready, 6, .order, true, []) := by decide

/-- V49a. -/
theorem test_read_flash_positioned : (sent (execNext (.readFlash 0) (shadow .idle true false false false))).2.2.2 = false := by decide

/-- V49b. -/
theorem test_read_ufm_needs_its_own_pointer :
    (execNext (.readUfm 0) (shadow .idle true false false true)).r.err = .order ∧
    sent (execNext (.readUfm 0) (shadow .idle false true false true)) = (.xact, [0xCA, 0, 0, 0], 16, false) := by decide

/-- P6, line 4. -/
theorem test_read_ufm_return :
    let t := execNext (.readUfm 0)
      (pending (.readUfm 0) ⟨0, #v[0xA0, 0xA1, 0xA2, 0xA3, 0xA4, 0xA5, 0xA6, 0xA7, 0xA8, 0xA9, 0xAA, 0xAB, 0xAC, 0xAD, 0xAE, 0xAF]⟩ State.reset)
    (t.r.len, t.r.data[0], t.r.data[15]) = (16, 0xA0, 0xAF) := by decide

/-- V116. -/
theorem test_erase_ufm :
    sent (execNext (.eraseUfm 0) State.reset) = (.xact, [0xCB, 0, 0, 0], 0, false) ∧
    shadowEnd (execNext (.eraseUfm 0) (pending (.eraseUfm 0) (answer 0 0) State.reset)) = (.ready, .idle, false, false, true, false) := by
  decide

/-- V102, V103. -/
theorem test_erase_in_order :
    shadowEnd (execNext (.erase 0x40000) (pending (.erase 0x40000) (answer 0 0) (shadow .addrReset1 true false false false))) =
      (.ready, .erasing, true, false, true, false) ∧
    shadowEnd (execNext (.erase 0x80000) (pending (.erase 0x80000) (answer 0 0) (shadow .addrReset1 true false false false))) =
      (.ready, .addrReset1, true, false, true, false) := by decide

/-- V104. -/
theorem test_erase_out_of_order :
    sent (execNext (.erase 0x40000) State.reset) = (.xact, [0x0E, 4, 0, 0], 0, true) ∧
    shadowEnd (execNext (.erase 0x40000) (pending (.erase 0x40000) (answer 0 0) State.reset)) = (.ready, .idle, false, false, true, false) := by
  decide

/-- V11, V12, V21. -/
theorem test_enable_cfg_transparent :
    sent (execNext (.enableCfgTransparent 0) State.reset) = (.xact, [0x74, 8, 0], 0, false) := by decide

theorem test_enable_cfg_offline :
    sent (execNext (.enableCfgOffline 0) State.reset) = (.xact, [0xC6, 8, 0], 0, false) := by decide

theorem test_wakeup : sent (execNext (.wakeup 0) State.reset) = (.xact, [0xFF, 0xFF, 0xFF, 0xFF], 0, false) := by decide

/-- V50 to V53, V60. -/
theorem test_is_busy_return :
    (execNext (.isBusy 0) (pending (.isBusy 0) (answer 0 0x80) State.reset)).r.busy = true ∧
    (execNext (.isBusy 0) (pending (.isBusy 0) (answer 0 0x7F) State.reset)).r.busy = false ∧
    (execNext (.isBusy 0) (pending (.isBusy 0) (answer 0 0x00) (shadow .erasing true false true false))).erasePend = false ∧
    (execNext (.isBusy 0) (pending (.isBusy 0) (answer 9 0x00) (shadow .erasing true false true false))).erasePend = true := by decide

theorem test_is_busy_accept_while_erasing :
    sent (execNext (.isBusy 0) (shadow .erasing true false true true)) = (.xact, [0xF0, 0, 0, 0], 1, false) := by decide

/-- V100, V105, V106, V119. -/
theorem test_reset_cfg_addr_return :
    shadowEnd (execNext (.resetCfgAddr 0) (pending (.resetCfgAddr 0) (answer 0 0) State.reset)) =
      (.ready, .addrReset1, true, false, false, false) ∧
    shadowEnd (execNext (.resetCfgAddr 0) (pending (.resetCfgAddr 0) (answer 0 0) (shadow .erasing true false true false))) =
      (.ready, .erasing, true, false, true, false) ∧
    shadowEnd (execNext (.resetCfgAddr 0) (pending (.resetCfgAddr 0) (answer 0 0) (shadow .erasing true false false false))) =
      (.ready, .addrReset2, true, false, false, false) ∧
    shadowEnd (execNext (.resetCfgAddr 0) (pending (.resetCfgAddr 0) (answer 7 0) State.reset)) =
      (.ready, .idle, false, false, false, true) := ⟨by decide, by decide, by decide, by decide⟩

theorem test_reset_cfg_addr_accept : sent (execNext (.resetCfgAddr 0) State.reset) = (.xact, [0x46, 0, 0, 0], 0, false) := by decide

/-- V117. -/
theorem test_reset_ufm_addr :
    sent (execNext (.resetUfmAddr 0) State.reset) = (.xact, [0x47, 0, 0, 0], 0, false) ∧
    shadowEnd (execNext (.resetUfmAddr 0) (pending (.resetUfmAddr 0) (answer 0 0) State.reset)) =
      (.ready, .idle, false, true, false, false) := by decide

/-- V38, V39, V92, V93. -/
theorem test_set_cfg_addr_range :
    (execNext (.setCfgAddr 0x10000) (shadow .idle false false true true)).r = { op := 15, err := .range } ∧
    (execNext (.setCfgAddr 0x10000) (shadow .idle false false true true)).seqViol = false ∧
    (execNext (.setCfgAddr 1) (shadow .idle false false true true)).r = { op := 15, err := .order } ∧
    sent (execNext (.setCfgAddr 0x10000) { State.reset with params := { pageOor := .truncate } }) =
      (.xact, [0xB4, 0, 0, 0, 0, 0, 0, 0], 0, false) := by decide

/-- V110. -/
theorem test_set_cfg_addr_while_programming :
    (sent (execNext (.setCfgAddr 0) (shadow .programming true false false false))).2.2.2 = true ∧
    shadowEnd (execNext (.setCfgAddr 0) (pending (.setCfgAddr 0) (answer 0 0) (shadow .programming true false false false))) =
      (.ready, .programming, true, false, false, false) := by decide

/-- V41 and P6, line 3. -/
theorem test_set_ufm_addr :
    (execNext (.setUfmAddr 0xFFFFFFFF) State.reset).r = { op := 16, err := .range } ∧
    sent (execNext (.setUfmAddr 0x123) State.reset) = (.xact, [0xB4, 0, 0, 0, 0x40, 0, 1, 0x23], 0, false) := by decide

/-- V107, V109; V42: the buffer is not checked. -/
theorem test_program_page :
    shadowEnd (execNext (.programPage 0 zeroBuf) (pending (.programPage 0 zeroBuf) (answer 0 0) (shadow .addrReset2 true false false false))) =
      (.ready, .programming, true, false, false, false) ∧
    shadowEnd (execNext (.programPage 0 zeroBuf) (pending (.programPage 0 zeroBuf) (answer 0 0) (shadow .addrReset1 true false false false))) =
      (.ready, .addrReset1, true, false, false, false) := by decide

theorem test_program_page_sends_the_buffer :
    (request (execNext (.programPage 0 (zeroBuf.set 0 0xAA)) State.reset)).w =
      [0xAA, 0, 0, 0, 0, 0, 0, 0, 0, 0, 0, 0, 0, 0, 0, 0, 0, 0, 0, 0] := by decide

/-- V111, V112, V95. -/
theorem test_program_done :
    shadowEnd (execNext (.programDone 0) (pending (.programDone 0) (answer 0 0) (shadow .programming true false false false))) =
      (.ready, .finalizing, true, false, false, false) ∧
    shadowEnd (execNext (.programDone 0) (pending (.programDone 0) (answer 0 0) (shadow .addrReset2 true false false false))) =
      (.ready, .addrReset2, true, false, false, false) ∧
    (execNext (.programDone 0) (shadow .idle false false false true)).r.err = .order := by decide

/-- V113, V114. -/
theorem test_refresh :
    shadowEnd (execNext (.refresh 0) (pending (.refresh 0) (answer 0 0) (shadow .finalizing true false false false))) =
      (.ready, .activated, false, false, false, false) ∧
    shadowEnd (execNext (.refresh 0) (pending (.refresh 0) (answer 0 0) (shadow .programming true true false false))) =
      (.ready, .programming, false, false, false, false) := by decide

/-- A WAIT_BUSY that has polled `n` times. -/
def polling (n limit : Word) (a : Answer) : State :=
  { pending (.isBusy 0) a (shadow .erasing true false true false) with
    seq := .poll, curOp := 21, pollCnt := n, params := { pollLimit := limit } }

/-- V55 (the last poll), V57, V59 (the last poll). -/
theorem test_wait_busy_ready_poll :
    let t := execNext (.waitBusy 0) (polling 2 3 (answer 0 0))
    (t.seq, t.r.err, t.r.count, t.r.busy, t.erasePend) = (.ready, .ok, 2, false, false) ∧
    (execNext (.waitBusy 0) (polling 2 0 (answer 9 0))).erasePend = true := by decide

/-- V56 (the third poll), V61. -/
theorem test_wait_busy_busy_poll :
    let t := execNext (.waitBusy 0) (polling 2 3 (answer 0 0x81))
    (t.seq, t.r.err, t.r.count, t.r.busy, t.r.data[0], t.erasePend) = (.ready, .timeout, 3, true, 0x81, true) ∧
    let u := execNext (.waitBusy 0) (polling 0xFFFFFFFF 0 (answer 0 0x80))
    (u.seq, u.pollCnt) = (.poll, 0xFFFFFFFF) := by decide

/-- A LOAD_HEX in its stream with `cnt` bytes stored and these tokens to come. -/
def streaming (cnt : BitVec 5) (haveHi recFull : Bool) (toks : List Token) : State :=
  { shadow .addrReset2 true false false false with
    seq := .lhStream, curOp := 22, cnt := cnt, haveHi := haveHi, hiNib := 0xA, recFull := recFull, hsIn := { now := toks } }

/-- V70: the byte 0x10 after a flush is an overflow and is stored all the same; R234: the sixteenth byte flushes. -/
theorem test_load_hex_second_digit :
    let t := execNext (.loadHex 0) (streaming 0 true true [.char 0x62])
    (t.trace, t.nOvf, t.cnt, t.pbPayload[0]) = ([.an .overflow], 1, 1, 0xAB) ∧
    let u := execNext (.loadHex 0) (streaming 15 true false [.char 0x42])
    (u.seq, u.cnt, u.pages, (request u).w) =
      (.lhFlush, 0, 1, [0x70, 0, 0, 0, 0, 0, 0, 0, 0, 0, 0, 0, 0, 0, 0, 0, 0, 0, 0, 0xAB]) := by decide

/-- V79 (the separator) and V80 (EOS). -/
theorem test_load_hex_dangling_digit :
    let t := execNext (.loadHex 0) (streaming 1 true false [.char 0x0A])
    (t.trace, t.nOdd, t.cnt, t.haveHi) = ([.an .oddDigits], 1, 0, false) ∧
    (execNext (.loadHex 0) (streaming 1 true false [.eos])).r = { op := 22, left := 1, nOdd := 1 } := by decide

/-- V90, V98 and R40's layout: the STAT word of P7's end and of P5's. -/
theorem test_step_and_stat :
    (match step { State.reset with cmdIn := { now := [{ op := 23, arg := 0, buf := zeroBuf }] } } with
      | .next t => t.r
      | .fault _ => {}
      | .refused _ => {}) = { op := 23, err := .illegalOp } ∧
    State.stat { shadow .erasing true false false false with xfail := true } = 0x008A ∧
    State.stat { State.reset with seqViol := true } = 0x0040 := by decide

/-- `withFetchWord` puts a word where `step` takes it: the very next step runs it. -/
theorem test_with_fetch_word :
    (match step (State.reset.withFetchWord 32 0xE0000000) with
      | .next t => sent t
      | .fault _ => (.ready, [], 0, false)
      | .refused _ => (.ready, [], 0, false)) = (.xact, [0xE0, 0, 0, 0], 4, false) := by decide

/-! ### Witnesses: for every obligation with hypotheses, values that meet all of them together -/

/-- CommandRoundTrip, second clause. -/
theorem witness_command_round_trip : decode { op := 15, arg := 0x1FFFF, buf := zeroBuf } = .ok (.setCfgAddr 0x1FFFF) := rfl

/-- FrameRoundTrip and FrameLengthFromFirstByte, at the largest operands. -/
theorem witness_frame_round_trip :
    (Instr.setUfmAddr 0xFFFF).isWire = true ∧ (Instr.setUfmAddr 0xFFFF).wellFormed 0 = true ∧ (Instr.setUfmAddr 0xFFFF).argCarried = true ∧
    (Instr.erase 0xF0000).isWire = true ∧ (Instr.erase 0xF0000).wellFormed 0 = true ∧ (Instr.erase 0xF0000).argCarried = true ∧
    (Instr.programPage 0 (zeroBuf.set 0 0x70)).isWire = true ∧ (Instr.programPage 0 (zeroBuf.set 0 0x70)).wellFormed 0 = true ∧
    (Instr.programPage 0 (zeroBuf.set 0 0x70)).argCarried = true := by decide

/-- DecodedFrameIsItsEncoding. -/
theorem witness_decoded_frame : decodeFrame 0 [0xB4, 0, 0, 0, 0x40, 0, 0xFF, 0xFF, 7] = .ok (.setUfmAddr 0xFFFF, [7]) := rfl

/-- EraseFrameTakesFlagBits, second clause: two different words that agree on bits 19:16. -/
theorem witness_erase_flags :
    (0x000F0000 : Word) ≠ 0xFFFFFFFF ∧
    ∀ k, k < 4 → (0x000F0000 : Word).getLsbD (16 + k) = (0xFFFFFFFF : Word).getLsbD (16 + k) := by decide

/-- HexCharacterValues: the ends of the three digit ranges, and their neighbours outside. -/
theorem witness_hex_characters :
    [0x30, 0x39, 0x41, 0x46, 0x61, 0x66].all (fun c => (hexValue c).isSome) = true ∧
    [0x00, 0x2F, 0x3A, 0x40, 0x47, 0x60, 0x67, 0xFF].all (fun c => hexValue c == none) = true := by decide

/-- The statements that say RunsAs: in READY, out of order and refused; in READY, accepted, with an answer. The clause `outOfOrder` of each family at
both values; for IS_BUSY it is false in every state. -/
theorem witness_runs_plain :
    let s := shadow .erasing true false true true
    let u : State := { shadow .erasing true false true false with txIn := { now := [answer 0 0] } }
    let v : State := { shadow .erasing true false false true with txIn := { now := [answer 7 0] } }
    (s.seq = .ready ∧ s.erasePend = true ∧ s.params.harden = true) ∧
    (u.seq = .ready ∧ u.params.harden = false ∧ u.txIn.pop freeAnswer = some (answer 0 0, {})) ∧
    (v.seq = .ready ∧ v.erasePend = false ∧ v.txIn.pop freeAnswer = some (answer 7 0, {})) := by decide

theorem witness_runs_with_pointer_or_lifecycle :
    (State.reset.seq = .ready ∧ (State.reset.erasePend || !State.reset.cfgPos) = true ∧ (State.reset.erasePend || !State.reset.ufmPos) = true) ∧
    (let s := shadow .addrReset2 true true false true
     (s.erasePend || !s.cfgPos) = false ∧ (s.erasePend || !s.ufmPos) = false ∧ pageOutOfOrder s = false ∧ addrOutOfOrder s = false) ∧
    (let s := shadow .finalizing false true false true
     pageOutOfOrder s = true ∧ addrOutOfOrder s = true ∧ (s.erasePend || s.life != .finalizing) = false) ∧
    (let s := shadow .programming true true false true
     (s.erasePend || s.life != .programming) = false ∧ (s.erasePend || s.life != .finalizing) = true) ∧
    ((0x40000 : Word).getLsbD 18 = true ∧ (shadow .addrReset1 true false false true).life = .addrReset1) := by decide

/-- CfgAddressWritesRun and UfmAddressWritesRun: the largest page that fits, and the first that does not under TRUNCATE. -/
theorem witness_pages :
    (0xFFFF : Word).toNat < 0x10000 ∧ ¬ (0x10000 : Word).toNat < 0x10000 ∧
    ({ State.reset with params := { pageOor := .truncate } } : State).params.pageOor = .truncate := by decide

/-- PageOutOfRangeRefused, and the last clause of CfgAddressWritesRun and UfmAddressWritesRun: the first page that does not fit; and a step
under TRUNCATE from a state whose response is RANGE. -/
theorem witness_page_out_of_range :
    (State.reset.seq = .ready ∧ 0x10000 ≤ (0x10000 : Word).toNat ∧ State.reset.params.pageOor = .refuse) ∧
    (let s : State := { State.reset with params := { pageOor := .truncate }, r := { err := .range } }
     s.params.pageOor = .truncate ∧ ∃ t, step s = .next t ∧ t.r.err = .range) := ⟨by decide, rfl, _, rfl, rfl⟩

/-- ReservedOpRefused. -/
theorem witness_reserved_op :
    let s : State := { State.reset with cmdIn := { now := [{ op := 23, arg := 0, buf := zeroBuf }] }, rstIn := { now := [false] } }
    rstNow s = false ∧ s.seq = .ready ∧ s.cmdIn.pop freeCmd = some ({ op := 23, arg := 0, buf := zeroBuf }, {}) ∧ 23 ≤ (23 : BitVec 5).toNat := by decide

/-- WaitBusyAccepted, and both clauses of LoadHexAccepted. -/
theorem witness_composites_accepted :
    State.reset.seq = .ready ∧
    (let s := shadow .idle false false false true
     s.seq = .ready ∧ (s.erasePend || !(s.life == .erasing || s.life == .addrReset2)) = true ∧ s.params.harden = true) ∧
    (let s := shadow .erasing true false false true
     s.seq = .ready ∧ (s.erasePend || !(s.life == .erasing || s.life == .addrReset2)) = false) := by decide

/-- PollStep: a ready byte; a busy byte at the limit, also at the saturated count; a busy byte below the limit and with no limit. -/
theorem witness_poll_step :
    ((polling 0 1 (answer 0 0x7F)).seq = .poll ∧ (polling 0 1 (answer 0 0x7F)).txIn.pop freeAnswer = some (answer 0 0x7F, {}) ∧
      (answer 0 0x7F).bytes[0].getLsbD 7 = false) ∧
    (let s := polling 0 1 (answer 0 0x80)
     (answer 0 0x80).bytes[0].getLsbD 7 = true ∧ s.params.pollLimit ≠ 0 ∧ s.params.pollLimit.toNat ≤ (s.pollCnt + 1).toNat) ∧
    (let s := polling 0xFFFFFFFF 0xFFFFFFFF (answer 0 0x80)
     s.pollCnt = 0xFFFFFFFF ∧ s.params.pollLimit ≠ 0 ∧ s.params.pollLimit.toNat ≤ s.pollCnt.toNat) ∧
    (let s := polling 0 2 (answer 0 0x80)
     s.pollCnt ≠ 0xFFFFFFFF ∧ (s.pollCnt + 1).toNat < s.params.pollLimit.toNat) ∧
    (polling 0 0 (answer 0 0x80)).params.pollLimit = 0 := by decide

/-- WaitBusyCountsBusyPolls with one busy poll under a limit of two; WaitBusyTimesOutAtLimit with a limit of one; WaitBusyHangsWhileBusy. -/
theorem witness_wait_busy_runs :
    let c : Cmd := { op := 21, arg := 0, buf := zeroBuf }
    let s : State := { State.reset with cmdIn := { now := [c] }, txIn := { now := [answer 0 0x80, answer 0 0] } }
    let u : State := { s with params := { pollLimit := 2 } }
    let v : State := { s with params := { pollLimit := 1 } }
    (s.seq = .ready ∧ s.rstIn = {} ∧ s.cmdIn.pop freeCmd = some (c, {}) ∧ c.op = 21 ∧
      (∀ a ∈ [answer 0 0x80], a.bytes[0].getLsbD 7 = true) ∧ (answer 0 0).bytes[0].getLsbD 7 = false ∧ s.params.pollLimit = 0) ∧
    s.txIn.Gives freeAnswer ([answer 0 0x80] ++ [answer 0 0]) {} ∧
    ([answer 0 0x80].length < u.params.pollLimit.toNat ∧ [answer 0 0x80].length < 2 ^ 32) ∧
    (v.txIn.Gives freeAnswer [answer 0 0x80] { now := [answer 0 0] } ∧ v.params.pollLimit ≠ 0 ∧
      [answer 0 0x80].length = v.params.pollLimit.toNat) :=
  ⟨by decide, Supply.gives_all_listed freeAnswer _ .nothing, by decide,
    Supply.gives_listed freeAnswer [answer 0 0x80] [answer 0 0] .nothing, by decide, by decide⟩

/-- WaitBusyEndsOnlyOnReadyPoll, first clause: a transport that answers for ever, busy for ever; and a free one. Third clause: a poll. -/
theorem witness_wait_busy_ends :
    let c : Cmd := { op := 21, arg := 0, buf := zeroBuf }
    let s : State := { State.reset with cmdIn := { now := [c] }, txIn := { later := .again (answer 0 0x80) [] } }
    (s.seq = .ready ∧ s.rstIn = {} ∧ s.cmdIn.pop freeCmd = some (c, {}) ∧ c.op = 21 ∧ s.params.pollLimit = 0) ∧
    (∀ n, s.txIn.Gives freeAnswer (List.replicate n (answer 0 0x80)) s.txIn) ∧
    ({ later := .free 0 0 } : Supply Answer).pop freeAnswer = some (freeAnswer 0 0, { later := .free 0 1 }) ∧
    (rstNow (polling 0 0 (answer 0 0x80)) = false ∧ (polling 0 0 (answer 0 0x80)).seq = .poll ∧
      ∃ t, step (polling 0 0 (answer 0 0x80)) = .next t) :=
  ⟨by decide, Supply.gives_again freeAnswer (answer 0 0x80), rfl, rfl, rfl, _, rfl⟩

/-- HangsAreRuns, second clause: a transaction that no transport answers. OperationsEndOnlyForTheirCause: an operation of each kind that ends. -/
theorem witness_operations_end :
    (let s : State := { pending (.readId 0) (answer 0 0) State.reset with txIn := {} }
     s.rstIn = {} ∧ txPending s.seq = true ∧ s.txIn = {}) ∧
    (let s := pending (.readId 0) (answer 0 0) State.reset
     rstNow s = false ∧ s.seq ≠ .ready ∧ ∃ t, step s = .next t ∧ t.seq = .ready) ∧
    (let s := polling 1 2 (answer 0 0x80)
     rstNow s = false ∧ s.seq ≠ .ready ∧ ∃ t, step s = .next t ∧ t.seq = .ready) ∧
    (let s := streaming 0 false false [.eos]
     rstNow s = false ∧ s.seq ≠ .ready ∧ ∃ t, step s = .next t ∧ t.seq = .ready) :=
  ⟨by decide, ⟨rfl, by decide, _, rfl, by decide⟩, ⟨rfl, by decide, _, rfl, by decide⟩, ⟨rfl, by decide, _, rfl, by decide⟩⟩

/-- LoadHexPointerResetReturns and PageTransactionReturns. -/
theorem witness_load_hex_returns :
    let s : State := { pending (.resetCfgAddr 0) (answer 0 0) (shadow .erasing true false false false) with seq := .lhReset, curOp := 22 }
    (s.seq = .lhReset ∧ s.txIn.pop freeAnswer = some (answer 0 0, {})) ∧
    ({ s with seq := .lhFlush } : State).seq = .lhFlush := by decide

/-- FirstDigitHeld; SecondDigitStoresByte at `cnt` 14 and 15; SeparatorDiscards; EndOfStreamReports. -/
theorem witness_tokens :
    (let s := streaming 0 false false [.char 0x66]
     s.seq = .lhStream ∧ s.hsIn.pop freeToken = some (.char 0x66, {}) ∧ hexValue 0x66 = some 15 ∧ s.haveHi = false) ∧
    (let s := streaming 14 true false [.char 0x66]
     s.seq = .lhStream ∧ s.hsIn.pop freeToken = some (.char 0x66, {}) ∧ hexValue 0x66 = some 15 ∧ s.haveHi = true ∧ s.cnt.toNat < 16 ∧ s.cnt ≠ 15) ∧
    (let s := streaming 15 true true [.char 0x66]
     s.seq = .lhStream ∧ s.haveHi = true ∧ s.cnt.toNat < 16 ∧ s.cnt = 15 ∧ (s.recFull && !s.recOvf) = true) ∧
    (let s := streaming 15 true true [.char 0x67]
     s.seq = .lhStream ∧ s.hsIn.pop freeToken = some (.char 0x67, {}) ∧ hexValue 0x67 = none) ∧
    (streaming 15 true true [.eos]).hsIn.pop freeToken = some (.eos, {}) := by decide

/-- StreamOfBytesBecomesPages with one page and one leftover byte: the seventeen-byte record of R238. -/
theorem witness_stream_of_bytes :
    let bs : List Byte := List.replicate 17 0x5A
    let s : State := { streaming 0 false false (hexChars bs ++ [.eos]) with txIn := { now := [answer 0 0] } }
    (s.seq = .lhStream ∧ s.rstIn = {} ∧ s.cnt = 0 ∧ s.haveHi = false ∧ s.recFull = false ∧ s.recOvf = false ∧ s.pages = 0 ∧
      1 < 2 ^ 32 ∧ 1 < 16 ∧ bs.length = 16 * 1 + 1 ∧ [answer 0 0].length = 1) ∧
    s.hsIn.Gives freeToken (hexChars bs ++ [.eos]) {} ∧ s.txIn.Gives freeAnswer [answer 0 0] {} :=
  ⟨by decide, Supply.gives_all_listed freeToken _ .nothing,
    Supply.gives_all_listed freeAnswer _ .nothing⟩

/-- RecordCountingLaws: a record of seventeen bytes and a half, a separator, and a record of one digit. -/
theorem witness_records :
    let first : List Byte := List.replicate 35 0x61
    let later : List (Byte × List Byte) := [(0x0A, [0x42])]
    let s : State := { streaming 0 false false (streamOf first later ++ [.eos]) with txIn := { now := [answer 0 0] } }
    (s.seq = .lhStream ∧ s.rstIn = {} ∧ s.cnt = 0 ∧ s.haveHi = false ∧ s.recFull = false ∧ s.recOvf = false ∧ s.pages = 0 ∧
      s.nOdd = 0 ∧ s.nOvf = 0) ∧
    (∀ r ∈ first :: later.map Prod.snd, ∀ c ∈ r, hexValue c ≠ none) ∧ (∀ p ∈ later, hexValue p.1 = none) ∧
    s.hsIn.Gives freeToken (streamOf first later ++ [.eos]) {} ∧ s.txIn.Gives freeAnswer [answer 0 0] {} ∧
    [answer 0 0].length = (((first :: later.map Prod.snd).map recordBytes).map (fun b => b.length / 16)).sum :=
  ⟨by decide, by decide, by decide,
    Supply.gives_all_listed freeToken _ .nothing,
    Supply.gives_all_listed freeAnswer _ .nothing, by decide⟩

/-- OperationsWait: another operation is in flight; no answer; no token. -/
theorem witness_operations_wait :
    (let s := pending (.readId 0) (answer 0 0) State.reset
     s.seq ≠ .ready ∧ s.curOp ≠ opsel (.readUfm 0) ∧ (s.seq = .poll → s.curOp = 21) ∧
       (s.seq = .lhReset ∨ s.seq = .lhStream ∨ s.seq = .lhFlush → s.curOp = 22)) ∧
    (let s : State := { pending (.readId 0) (answer 0 0) State.reset with txIn := { now := [] } }
     txPending s.seq = true ∧ s.txIn.pop freeAnswer = none) ∧
    ((streaming 0 false false []).seq = .lhStream ∧ (streaming 0 false false []).hsIn.pop freeToken = none) := by decide

/-- A block that has READ_ID in flight while a command waits. -/
def busyBlock : State :=
  { pending (.readId 0) (answer 0 0) State.reset with cmdIn := { now := [{ op := 0, arg := 0, buf := zeroBuf }] } }

/-- CommandsTakenOnlyInReady; SeqViolIsInert, TransportKindIsInert and ParametersAndPrefixFixed need only that a step answers. -/
theorem witness_commands_wait : busyBlock.seq ≠ .ready ∧ ∃ t, step busyBlock = .next t ∧ rstNow busyBlock = false :=
  ⟨by decide, _, rfl, rfl⟩

/-- StepRunsTheOperation: each clause. -/
theorem witness_step :
    (let s : State := { State.reset with cmdIn := { now := [{ op := 22, arg := 0, buf := zeroBuf }] } }
     rstNow s = false ∧ s.seq = .ready ∧ s.cmdIn.pop freeCmd = some ({ op := 22, arg := 0, buf := zeroBuf }, {}) ∧
       decode { op := 22, arg := 0, buf := zeroBuf } = .ok (.loadHex 0)) ∧
    State.reset.cmdIn.pop freeCmd = none ∧
    (busyBlock.seq = .xact ∧ decode { op := busyBlock.curOp, arg := busyBlock.curArg, buf := busyBlock.fb } = .ok (.readId 0)) ∧
    (polling 0 0 (answer 0 0)).seq = .poll ∧ (streaming 0 false false []).seq = .lhStream :=
  ⟨⟨rfl, rfl, rfl, rfl⟩, rfl, ⟨rfl, rfl⟩, rfl, rfl⟩

/-- RstEvent and RstDropsTheAbandonedAnswer (both clauses). -/
theorem witness_rst :
    (let s : State := { busyBlock with rstIn := { now := [true] } }
     s.rstIn.pop Config.freeRst = some (true, {}) ∧ rstNow s = true ∧ txPending s.seq = true) ∧
    (let s : State := { streaming 9 false false [.eos] with rstIn := { now := [true] } }
     rstNow s = true ∧ txPending s.seq = false) := by decide

/-- StepKeepsInv: a LOAD_HEX in its stream. -/
theorem witness_inv : Inv (streaming 3 true false [.eos]) ∧ ∃ t, step (streaming 3 true false [.eos]) = .next t :=
  ⟨⟨by decide, by decide, by decide, rfl, fun e he => absurd he (List.not_mem_nil)⟩, _, rfl⟩

/-- StickyFlagsStay. -/
theorem witness_sticky :
    let s : State := { busyBlock with seqViol := true, xfail := true }
    rstNow s = false ∧ s.seqViol = true ∧ s.xfail = true ∧ ∃ t, step s = .next t := ⟨rfl, rfl, rfl, _, rfl⟩

/-- LifeMovesOnlyInOrder: the pointer reset of V100. -/
theorem witness_life_moves :
    let s := pending (.resetCfgAddr 0) (answer 0 0) State.reset
    rstNow s = false ∧ ∃ t, step s = .next t ∧ t.life ≠ s.life := ⟨rfl, _, rfl, by decide⟩

/-- FailureMovesNoShadow and OneFramePerReturn, both clauses of the latter: V119. -/
theorem witness_failure :
    (let s := pending (.resetCfgAddr 0) (answer 7 0) State.reset
     rstNow s = false ∧ txPending s.seq = true ∧ s.txIn.pop freeAnswer = some (answer 7 0, {}) ∧ (answer 7 0).status ≠ 0 ∧ s.txIn.pop freeAnswer ≠ none ∧
       (s.seq = .xact → s.curOp.toNat ≤ 20)) ∧
    (streaming 0 false false [.eos]).seq = .lhStream := by decide

/-- HardenRefusesOutOfOrder: V93 (ORDER) and V92 (RANGE). -/
theorem witness_harden :
    let c : Cmd := { op := 15, arg := 1, buf := zeroBuf }
    let d : Cmd := { op := 15, arg := 0x10000, buf := zeroBuf }
    let s : State := { shadow .erasing true false true true with cmdIn := { now := [c, d] } }
    rstNow s = false ∧ s.seq = .ready ∧ s.params.harden = true ∧ s.cmdIn.pop freeCmd = some (c, { now := [d] }) ∧ decode c = .ok (.setCfgAddr 1) ∧
    legal (.setCfgAddr 1) s = false ∧ decode d = .ok (.setCfgAddr 0x10000) ∧ legal (.setCfgAddr 0x10000) s = false :=
  ⟨rfl, rfl, rfl, rfl, rfl, by decide, rfl, by decide⟩

/-- SessionSequenceActivates: one page, one busy poll. -/
theorem witness_session :
    let cmds : List Cmd :=
      [encode (.resetCfgAddr 0), encode (.erase 0x40000), encode (.waitBusy 0), encode (.resetCfgAddr 0)] ++
        [zeroBuf].map (fun b => encode (.programPage 0 b)) ++ [encode (.programDone 0), encode (.refresh 0)]
    let before : List Answer := [answer 0 0, answer 0 0]
    let after : List Answer := [answer 0 0, answer 0 0, answer 0 0, answer 0 0]
    let s : State :=
      { State.reset with cmdIn := { now := cmds }, txIn := { now := before ++ ([answer 0 0x80] ++ answer 0 0 :: after) } }
    (s.seq = .ready ∧ s.rstIn = {} ∧ s.life = .idle ∧ s.erasePend = false ∧ (0x40000 : Word).getLsbD 18 = true ∧ [zeroBuf] ≠ [] ∧
      before.length = 2 ∧ after.length = [zeroBuf].length + 3) ∧
    (∀ a ∈ before ++ ([answer 0 0x80] ++ answer 0 0 :: after), a.status = 0) ∧
    ((∀ a ∈ [answer 0 0x80], a.bytes[0].getLsbD 7 = true) ∧ (answer 0 0).bytes[0].getLsbD 7 = false ∧ s.params.pollLimit = 0) ∧
    s.cmdIn.Gives freeCmd cmds {} ∧ s.txIn.Gives freeAnswer (before ++ ([answer 0 0x80] ++ answer 0 0 :: after)) {} :=
  ⟨by decide, by decide, by decide, Supply.gives_all_listed freeCmd _ .nothing, Supply.gives_all_listed freeAnswer _ .nothing⟩

/-- LegalityHoldsUntilReturn. -/
theorem witness_legality :
    State.reset.seq = .ready ∧ ∃ t, exec (.readFlash 0) State.reset = .next t ∧ t.seq = .xact := ⟨rfl, _, rfl, rfl⟩

/-- PageSentOnlyWhenFull. -/
theorem witness_page_sent :
    let s := streaming 15 true false [.char 0x42]
    s.seq ≠ .lhFlush ∧ ∃ t, step s = .next t ∧ t.seq = .lhFlush := ⟨by decide, _, rfl, by decide⟩

/-- UnspecifiedBitsReachNoChannel: two states that differ in `fb` and in the payload bytes not yet stored, but not in the held digit. -/
theorem witness_unspecified :
    let s := streaming 2 true false [.char 0x42]
    let s' : State := { s with fb := zeroBuf.set 5 1, pbPayload := s.pbPayload.set 2 0xEE }
    AgreeOnSpecified s s' ∧ s ≠ s' ∧ ∃ t, step s = .next t :=
  ⟨⟨rfl, by decide, by decide, by decide, by decide⟩, by decide, _, rfl⟩

end Sys2Proof.Tests
end

/-! PROOFS. The scope rules of spec/00_scope.md: an operation waits while another is in flight (R11, R141), a command is taken in READY only
(R11), TRANSPORT_KIND has no effect (R6). The last two rest on one fact: no operation in flight reads or writes TRANSPORT_KIND or the waiting
commands, which is said here as commuting with every change of them (`Blind`), once per operation. -/

namespace Sys2Proof.Machine

/-! ### Waiting -/

theorem onReturn_none (k : Answer → State → State) (s : State) (h : s.txIn.pop freeAnswer = none) : onReturn k s = s := by
  simp only [onReturn, h]

theorem onToken_none (s : State) (h : s.hsIn.pop freeToken = none) : onToken s = s := by
  simp only [onToken, h]

theorem onReturn_some (k : Answer → State → State) (s : State) (a : Answer) (rest : Supply Answer)
    (h : s.txIn.pop freeAnswer = some (a, rest)) : onReturn k s = k a (recordReturn a { s with txIn := rest }) := by
  simp only [onReturn, h]

theorem onToken_some (s : State) (t : Token) (rest : Supply Token) (h : s.hsIn.pop freeToken = some (t, rest)) :
    onToken s = token t { s with hsIn := rest } := by
  simp only [onToken, h]

/-- `i` is an operation that `seq` says is in flight: in XACT the one `cur_op` names, otherwise the composite of that state
(spec/10_state.md R21, R22). -/
def InFlightOp (i : Instr) (s : State) : Prop :=
  match s.seq with
  | .ready => False
  | .xact => s.curOp = opsel i
  | .poll => opsel i = 21
  | .lhReset | .lhStream | .lhFlush => opsel i = 22

/-- Outside READY an operation waits, unless it is the one in flight and takes a return or a token (spec/40_sequencer.md R141). -/
theorem exec_busy_cases (i : Instr) (s : State) (h : s.seq ≠ .ready) :
    exec i s = .next s ∨
    (InFlightOp i s ∧ txPending s.seq = true ∧ ∃ k, exec i s = .next (onReturn k s)) ∨
    (InFlightOp i s ∧ s.seq = .lhStream ∧ exec i s = .next (onToken s)) := by
  rcases wire_or_composite i with hw | ⟨arg, rfl⟩ | ⟨arg, rfl⟩
  · rw [exec_wire i s hw]
    cases hq : s.seq
    case ready => exact absurd hq h
    case xact =>
      cases hc : isCurrent i s
      · exact .inl (by simp [simpleOp, hq, hc])
      · have hop : s.curOp = opsel i := by
          simp only [isCurrent, Bool.and_eq_true, beq_iff_eq] at hc
          exact hc.1
        exact .inr (.inl ⟨by simpa only [InFlightOp, hq] using hop, rfl, xactReturn i, by simp [simpleOp, hq, hc]⟩)
    all_goals exact .inl (by simp only [simpleOp, hq])
  · cases hq : s.seq
    case ready => exact absurd hq h
    case poll => exact .inr (.inl ⟨by simp only [InFlightOp, hq, opsel], rfl, pollReturn, by simp only [exec, execWaitBusy, hq]⟩)
    all_goals exact .inl (by simp only [exec, execWaitBusy, hq])
  · cases hq : s.seq
    case ready => exact absurd hq h
    case lhReset => exact .inr (.inl ⟨by simp only [InFlightOp, hq, opsel], rfl, resetReturn, by simp only [exec, execLoadHex, hq]⟩)
    case lhStream => exact .inr (.inr ⟨by simp only [InFlightOp, hq, opsel], rfl, by simp only [exec, execLoadHex, hq]⟩)
    case lhFlush => exact .inr (.inl ⟨by simp only [InFlightOp, hq, opsel], rfl, flushReturn, by simp only [exec, execLoadHex, hq]⟩)
    all_goals exact .inl (by simp only [exec, execLoadHex, hq])

/-- An operation in flight is the one that `cur_op` names, given what R21 says of `cur_op` in the composite states. -/
theorem InFlightOp.curOp_eq {i : Instr} {s : State} (hi : InFlightOp i s) (hp : s.seq = .poll → s.curOp = 21)
    (hl : s.seq = .lhReset ∨ s.seq = .lhStream ∨ s.seq = .lhFlush → s.curOp = 22) : s.curOp = opsel i := by
  unfold InFlightOp at hi
  cases hq : s.seq <;> simp only [hq] at hi
  case xact => exact hi
  case poll => rw [hi]; exact hp hq
  all_goals rw [hi]; exact hl (by simp [hq])

/-- Settles O35, by the three things an operation can do outside READY. -/
theorem operationsWait : Obligations.OperationsWait := by
  intro i s
  refine ⟨fun hq hne hp hl => ?_, fun hq hnone => ?_, fun hq hnone => ?_⟩
  · rcases exec_busy_cases i s hq with hw | ⟨hi, -⟩ | ⟨hi, -⟩
    · exact hw
    · exact absurd (hi.curOp_eq hp hl) hne
    · exact absurd (hi.curOp_eq hp hl) hne
  · rcases exec_busy_cases i s (fun h => by simp [h, txPending] at hq) with hw | ⟨-, -, k, hk⟩ | ⟨-, hs, -⟩
    · exact hw
    · rw [hk, onReturn_none k s hnone]
    · simp [hs, txPending] at hq
  · rcases exec_busy_cases i s (by simp [hq]) with hw | ⟨-, hpend, -⟩ | ⟨-, -, ht⟩
    · exact hw
    · simp [hq, txPending] at hpend
    · rw [ht, onToken_none s hnone]

/-! ### What no operation in flight reads or writes -/

/-- `s` with TRANSPORT_KIND changed by `f` and the waiting commands by `g`. -/
def State.mapOutside (f : TransportKind → TransportKind) (g : Supply Cmd → Supply Cmd) (s : State) : State :=
  { s with params := { s.params with transport := f s.params.transport }, cmdIn := g s.cmdIn }

/-- `F` neither reads nor writes TRANSPORT_KIND and the waiting commands: it commutes with every change of them. -/
def Blind (F : State → State) : Prop := ∀ f g s, F (s.mapOutside f g) = (F s).mapOutside f g

theorem Blind.comp {F G : State → State} (hF : Blind F) (hG : Blind G) : Blind (fun s => F (G s)) := by
  intro f g s
  simp only [hG f g s, hF f g (G s)]

/-- A choice is blind when what it asks does not see the change either. -/
theorem Blind.ite {p : State → Prop} [DecidablePred p] {F G : State → State} (hp : ∀ f g s, p (s.mapOutside f g) ↔ p s)
    (hF : Blind F) (hG : Blind G) : Blind (fun s => if p s then F s else G s) := by
  intro f g s
  by_cases h : p s
  · simp only [hp f g s, h, if_true]; exact hF f g s
  · simp only [hp f g s, h, if_false]; exact hG f g s

/-- What is read on the way may be anything that does not see the change. -/
theorem Blind.read {α : Type} {x : State → α} {F : α → State → State} (hx : ∀ f g s, x (s.mapOutside f g) = x s)
    (hF : ∀ v, Blind (F v)) : Blind (fun s => F (x s) s) := by
  intro f g s
  simp only [hx f g s]
  exact hF (x s) f g s

theorem Blind.same : Blind (fun s => s) := fun _ _ _ => rfl

/-- What is blind leaves the waiting commands as they are: `F` commutes with putting the very commands of `s` in their place. -/
theorem Blind.cmdIn {F : State → State} (hF : Blind F) (s : State) : (F s).cmdIn = s.cmdIn := by
  have h : F s = (F s).mapOutside (fun k => k) (fun _ => s.cmdIn) := hF (fun k => k) (fun _ => s.cmdIn) s
  exact (congrArg State.cmdIn h).trans rfl

@[simp] theorem legal_mapOutside (i : Instr) (f : TransportKind → TransportKind) (g : Supply Cmd → Supply Cmd) (s : State) :
    legal i (s.mapOutside f g) = legal i s := legal_congr i s _ rfl rfl rfl rfl

theorem blind_respond (resp : Response) : Blind (respond resp) := fun _ _ _ => rfl

theorem blind_refuse (op : BitVec 5) (cause : Err) : Blind (refuse op cause) := fun _ _ _ => rfl

/-! The accept step. -/

theorem blind_startXact (i : Instr) : Blind (startXact i) := fun _ _ _ => rfl

theorem blind_startPoll : Blind startPoll := fun _ _ _ => rfl

theorem blind_startLoad : Blind startLoad := by
  intro f g s
  rw [startLoad_eq, startLoad_eq, legal_mapOutside]
  rfl

theorem blind_startOf (i : Instr) : Blind (startOf i) := by
  rcases wire_or_composite i with hw | ⟨arg, rfl⟩ | ⟨arg, rfl⟩
  · rw [startOf_wire i hw]; exact blind_startXact i
  · exact blind_startPoll
  · exact blind_startLoad

theorem blind_acceptOrdered (i : Instr) {start : State → State} (hs : Blind start) : Blind (acceptOrdered i start) := by
  refine Blind.ite (p := fun s => legal i s = true) (by simp) ?_ ?_
  · exact hs.comp fun _ _ _ => rfl
  · refine Blind.ite (p := fun s => s.params.harden = true) (fun _ _ _ => Iff.rfl) ?_ ?_
    · exact (blind_refuse _ _).comp fun _ _ _ => rfl
    · exact hs.comp fun _ _ _ => rfl

theorem blind_accept (i : Instr) : Blind (accept i (startOf i)) :=
  Blind.ite (p := fun s => rangeRefused i s.params = true) (fun _ _ _ => Iff.rfl) (blind_refuse _ _)
    (blind_acceptOrdered i (blind_startOf i))

/-! The returns. -/

theorem blind_recordReturn (a : Answer) : Blind (recordReturn a) := by
  intro f g s
  rw [recordReturn_eq, recordReturn_eq]
  rfl

theorem blind_flagEffects (i : Instr) (b : Byte) : Blind (flagEffects i b) := by
  intro f g s
  cases i <;> rfl

theorem blind_effectsIfOk (i : Instr) (a : Answer) : Blind (effectsIfOk i a) := by
  refine Blind.ite (p := fun _ => a.status = 0) (fun _ _ _ => Iff.rfl) ?_ Blind.same
  intro f g s
  simp only [applyEffects, moveLife, legal_mapOutside, blind_flagEffects i _ f g s]
  cases legal i s <;> rfl

theorem blind_onReturn {k : Answer → State → State} (hk : ∀ a, Blind (k a)) : Blind (onReturn k) := by
  intro f g s
  cases hpop : s.txIn.pop freeAnswer with
  | none => rw [onReturn_none k s hpop]; exact onReturn_none k _ hpop
  | some answered =>
    obtain ⟨a, rest⟩ := answered
    rw [onReturn_some k s a rest hpop]
    exact (onReturn_some k (s.mapOutside f g) a rest hpop).trans ((hk a).comp (blind_recordReturn a) f g { s with txIn := rest })

theorem blind_xactReturn (i : Instr) (a : Answer) : Blind (xactReturn i a) :=
  Blind.read (x := xactResponse a) (fun _ _ _ => rfl) fun v => (blind_respond v).comp (blind_effectsIfOk i a)

theorem blind_busyPoll (a : Answer) : Blind (busyPoll a) :=
  Blind.ite (p := fun s => limitReached s = true) (fun _ _ _ => Iff.rfl) (fun _ _ _ => rfl) Blind.same

theorem blind_readyPoll (a : Answer) : Blind (readyPoll a) :=
  Blind.ite (p := fun _ => a.status = 0) (fun _ _ _ => Iff.rfl) (fun _ _ _ => rfl) Blind.same

theorem blind_pollReturn (a : Answer) : Blind (pollReturn a) := by
  refine Blind.ite (p := fun _ => busyBit a.bytes[0] = true) (fun _ _ _ => Iff.rfl) ?_ ?_
  · exact (blind_busyPoll a).comp fun _ _ _ => rfl
  · exact Blind.read (x := pollResponse .ok a) (fun _ _ _ => rfl) fun v => (blind_respond v).comp (blind_readyPoll a)

/-- The stream goes on after a return in LH_RESET or LH_FLUSH. -/
theorem blind_toStream : Blind (fun s => { s with seq := .lhStream }) := fun _ _ _ => rfl

theorem blind_resetReturn (a : Answer) : Blind (resetReturn a) := blind_toStream.comp (blind_effectsIfOk (.resetCfgAddr 0) a)

theorem blind_flushReturn (a : Answer) : Blind (flushReturn a) :=
  Blind.read (x := pb) (fun _ _ _ => rfl) fun page => blind_toStream.comp (blind_effectsIfOk (.programPage 0 page) a)

/-! The tokens. -/

theorem blind_flush : Blind flush := by
  intro f g s
  rw [flush_eq, flush_eq, legal_mapOutside]
  rfl

theorem blind_noteOverflow : Blind noteOverflow := by
  intro f g s
  rw [noteOverflow_eq, noteOverflow_eq]
  rfl

theorem blind_dropDigit : Blind dropDigit := by
  intro f g s
  rw [dropDigit_eq, dropDigit_eq]
  rfl

theorem blind_flushIfFull : Blind flushIfFull :=
  Blind.ite (p := fun s => s.cnt = 16) (fun _ _ _ => Iff.rfl) blind_flush Blind.same

theorem blind_putByte (b : Byte) : Blind (putByte b) := fun _ _ _ => rfl

theorem blind_takeHeldDigit : Blind (fun s => { s with haveHi := false }) := fun _ _ _ => rfl

theorem blind_secondDigit (v : BitVec 4) : Blind (secondDigit v) :=
  Blind.read (x := fun s => hexByte s.hiNib v) (fun _ _ _ => rfl) fun b =>
    blind_flushIfFull.comp ((blind_putByte b).comp (blind_noteOverflow.comp blind_takeHeldDigit))

theorem blind_hexDigit (v : BitVec 4) : Blind (hexDigit v) :=
  Blind.ite (p := fun s => s.haveHi = true) (fun _ _ _ => Iff.rfl) (blind_secondDigit v) fun _ _ _ => rfl

theorem blind_separator : Blind separator :=
  Blind.comp (F := fun s => { s with cnt := 0, recFull := false, recOvf := false }) (fun _ _ _ => rfl) blind_dropDigit

theorem blind_endOfStream : Blind endOfStream :=
  (Blind.read (x := loadResponse) (fun _ _ _ => rfl) blind_respond).comp blind_dropDigit

theorem token_digit (c : Byte) (v : BitVec 4) (h : hexValue c = some v) : token (.char c) = hexDigit v := by
  funext s
  simp only [token, h]

theorem token_separator (c : Byte) (h : hexValue c = none) : token (.char c) = separator := by
  funext s
  simp only [token, h]

theorem blind_token (t : Token) : Blind (token t) := by
  cases t with
  | eos => exact blind_endOfStream
  | char c =>
    cases hv : hexValue c with
    | some v => rw [token_digit c v hv]; exact blind_hexDigit v
    | none => rw [token_separator c hv]; exact blind_separator

theorem blind_onToken : Blind onToken := by
  intro f g s
  cases hpop : s.hsIn.pop freeToken with
  | none => rw [onToken_none s hpop]; exact onToken_none _ hpop
  | some presented =>
    obtain ⟨t, rest⟩ := presented
    rw [onToken_some s t rest hpop]
    exact (onToken_some (s.mapOutside f g) t rest hpop).trans (blind_token t f g { s with hsIn := rest })

/-! ### The step -/

/-- A step of an operation in flight is blind; READY looks at the waiting commands, so there only TRANSPORT_KIND may change. -/
theorem nextState_mapOutside (f : TransportKind → TransportKind) (g : Supply Cmd → Supply Cmd) (s : State)
    (hg : s.seq = .ready → g = fun q => q) : nextState (s.mapOutside f g) = (nextState s).mapOutside f g := by
  rcases nextState_cases s with ⟨hn, h⟩ | ⟨c, rest, i, hq, hc, hd, h⟩ | ⟨c, rest, e, hq, hc, hd, h⟩ | ⟨i, hq, hf, hw, h⟩ |
    ⟨hq, h⟩ | ⟨hq, h⟩ | ⟨hq, h⟩ | ⟨hq, h⟩ <;> rw [h]
  · refine nextState_nothing _ ?_
    rcases hn with ⟨hq, hc⟩ | hx
    · obtain rfl := hg hq
      exact .inl ⟨hq, hc⟩
    · exact .inr hx
  · obtain rfl := hg hq
    exact (nextState_accept (s.mapOutside f fun q => q) c rest i hq hc hd).trans (blind_accept i f (fun q => q) { s with cmdIn := rest })
  · obtain rfl := hg hq
    exact nextState_illegal _ c rest e hq hc hd
  · exact (nextState_xact (s.mapOutside f g) i hq hf hw).trans (blind_onReturn (blind_xactReturn i) f g s)
  · exact (nextState_poll (s.mapOutside f g) hq).trans (blind_onReturn blind_pollReturn f g s)
  · exact (nextState_lhReset (s.mapOutside f g) hq).trans (blind_onReturn blind_resetReturn f g s)
  · exact (nextState_lhStream (s.mapOutside f g) hq).trans (blind_onToken f g s)
  · exact (nextState_lhFlush (s.mapOutside f g) hq).trans (blind_onReturn blind_flushReturn f g s)

/-- Outside READY no command is taken (spec/00_scope.md R11). -/
theorem nextState_cmdIn_of_busy (s : State) (hq : s.seq ≠ .ready) : (nextState s).cmdIn = s.cmdIn :=
  (congrArg State.cmdIn (nextState_mapOutside (fun k => k) (fun _ => s.cmdIn) s (absurd · hq))).trans rfl

/-- In READY the next command is taken, if there is one. -/
theorem nextState_cmdIn_of_ready (s : State) (hq : s.seq = .ready) :
    (nextState s).cmdIn = s.cmdIn ∨ ∃ c, s.cmdIn.pop freeCmd = some (c, (nextState s).cmdIn) := by
  cases hc : s.cmdIn.pop freeCmd with
  | none => exact .inl (by rw [nextState_idle s hq hc])
  | some taken =>
    obtain ⟨c, rest⟩ := taken
    refine .inr ⟨c, ?_⟩
    cases hd : decode c with
    | ok i => rw [nextState_accept s c rest i hq hc hd, (blind_accept i).cmdIn]
    | error e => rw [nextState_illegal s c rest e hq hc hd, (blind_refuse _ _).cmdIn]

/-- Settles O38: a reset and every step outside READY leave the waiting commands, and READY takes one at most. -/
theorem commandsTakenOnlyInReady : Obligations.CommandsTakenOnlyInReady := by
  intro s t h
  rw [step_eq, Host.Outcome.next.injEq] at h
  subst h
  cases rstNow s
  · simp only [Bool.false_eq_true, if_false]
    refine ⟨nextState_cmdIn_of_busy (useRstSample s), ?_⟩
    by_cases hq : s.seq = .ready
    · exact nextState_cmdIn_of_ready (useRstSample s) hq
    · exact .inl (nextState_cmdIn_of_busy (useRstSample s) hq)
  · exact ⟨fun _ => rfl, .inl rfl⟩

theorem blind_rst : Blind rst := fun _ _ _ => rfl

theorem step_mapTransport (f : TransportKind → TransportKind) (s t : State) (h : step s = .next t) :
    step (s.mapOutside f fun q => q) = .next (t.mapOutside f fun q => q) := by
  have hrst : rstNow (s.mapOutside f fun q => q) = rstNow s := rfl
  rw [step_eq, Host.Outcome.next.injEq] at h
  subst h
  rw [step_eq, hrst]
  cases rstNow s
  · exact congrArg Host.Outcome.next (nextState_mapOutside f _ (useRstSample s) fun _ => rfl)
  · exact congrArg Host.Outcome.next (blind_rst f (fun q => q) (useRstSample s))

/-- Settles O55: every step commutes with a change of TRANSPORT_KIND. -/
theorem transportKindIsInert : Obligations.TransportKindIsInert :=
  fun s t k h => step_mapTransport (fun _ => k) s t h

end Sys2Proof.Machine

/-! PROOFS. The state of spec/10_state.md: the reset values and the STAT word, the operation that a step runs, the invariant of R45, the sticky
flags `seq_viol` and `xfail`, the parameters and `life`. -/

namespace Sys2Proof.Machine

/-! ### Reset and the STAT word -/

/-- Settles O40, by evaluating `State.reset`. -/
theorem resetValues : Obligations.ResetValues := by
  unfold Obligations.ResetValues
  decide

/-- A flag stands at its own bit. -/
theorem flagBit_getLsbD (b : Bool) (n k : Nat) (hn : n < 16) :
    ((BitVec.ofBool b).setWidth 16 <<< n).getLsbD k = (decide (k = n) && b) := by
  simp only [BitVec.getLsbD_shiftLeft, BitVec.getLsbD_setWidth, BitVec.getLsbD_ofBool]
  rcases Nat.lt_trichotomy k n with h | rfl | h
  · simp [h, h.ne]
  · simp [hn]
  · simp [h.ne', Nat.sub_ne_zero_of_lt h]

theorem seqField_getLsbD (c : BitVec 3) (k : Nat) :
    (c.setWidth 16 <<< 8).getLsbD k = (decide (8 ≤ k) && c.getLsbD (k - 8)) := by
  simp only [BitVec.getLsbD_shiftLeft, BitVec.getLsbD_setWidth]
  by_cases h : k < 16
  · have h8 : k - 8 < 16 := by omega
    simp only [h, h8, decide_true, Bool.true_and, ← Nat.not_lt, decide_not]
  · rw [BitVec.getLsbD_of_ge c (k - 8) (by omega)]
    simp

/-- Bit `k` of STAT: each field where spec/10_state.md R40 puts it. -/
theorem stat_getLsbD (s : State) (k : Nat) :
    s.stat.getLsbD k =
      ((lifeCode s.life).getLsbD k || (decide (k = 3) && s.cfgPos) || (decide (k = 4) && s.ufmPos) ||
        (decide (k = 5) && s.erasePend) || (decide (k = 6) && s.seqViol) || (decide (k = 7) && s.xfail) ||
        (decide (8 ≤ k) && (seqCode s.seq).getLsbD (k - 8))) := by
  have hlife : ((lifeCode s.life).setWidth 16).getLsbD k = (lifeCode s.life).getLsbD k := by
    rw [BitVec.getLsbD_setWidth, Bool.and_eq_right_iff_imp, decide_eq_true_eq]
    exact fun h => (BitVec.lt_of_getLsbD h).trans (by decide)
  simp only [State.stat, BitVec.getLsbD_or, hlife, seqField_getLsbD, flagBit_getLsbD _ 3 k (by decide),
    flagBit_getLsbD _ 4 k (by decide), flagBit_getLsbD _ 5 k (by decide), flagBit_getLsbD _ 6 k (by decide),
    flagBit_getLsbD _ 7 k (by decide)]

theorem stat_getLsbD_life (s : State) (k : Nat) (hk : k < 3) : s.stat.getLsbD k = (lifeCode s.life).getLsbD k := by
  rw [stat_getLsbD]
  interval_cases k <;> simp

theorem stat_getLsbD_seq (s : State) (k : Nat) : s.stat.getLsbD (8 + k) = (seqCode s.seq).getLsbD k := by
  rw [stat_getLsbD, BitVec.getLsbD_of_ge _ (8 + k) (by omega), Nat.add_sub_cancel_left]
  have hflag : 8 + k ≠ 3 ∧ 8 + k ≠ 4 ∧ 8 + k ≠ 5 ∧ 8 + k ≠ 6 ∧ 8 + k ≠ 7 := by omega
  simp [hflag]

/-- Settles O57, from the reading of one bit of STAT. -/
theorem statWord : Obligations.StatWord := by
  intro s
  refine ⟨?life, ?_, ?_, ?_, ?_, ?_, ?seq, ?zero⟩
  case life =>
    refine BitVec.eq_of_getLsbD_eq fun k hk => ?_
    rw [BitVec.getLsbD_extractLsb', Nat.zero_add, stat_getLsbD_life s k hk, decide_eq_true hk, Bool.true_and]
  case seq =>
    refine BitVec.eq_of_getLsbD_eq fun k hk => ?_
    rw [BitVec.getLsbD_extractLsb', stat_getLsbD_seq, decide_eq_true hk, Bool.true_and]
  case zero =>
    refine BitVec.eq_of_getLsbD_eq fun k hk => ?_
    rw [BitVec.getLsbD_extractLsb', show 11 + k = 8 + (3 + k) by omega, stat_getLsbD_seq,
      BitVec.getLsbD_of_ge _ (3 + k) (by omega), Bool.and_false]
    exact BitVec.getLsbD_zero.symm
  all_goals rw [stat_getLsbD, BitVec.getLsbD_of_ge (lifeCode s.life) _ (by decide)]; simp

/-! ### The operation that a step runs -/

theorem step_of_no_rst (s : State) (h : rstNow s = false) : step s = stepBlock (useRstSample s) := by
  simp only [step, h, Bool.false_eq_true, if_false]

theorem stepBlock_of_run (s t : State) (i : Instr) (h : fetch s = .run i t) : stepBlock s = exec i t := by
  simp only [stepBlock, h]

theorem stepBlock_of_idle (s : State) (h : fetch s = .idle) : stepBlock s = .next s := by
  simp only [stepBlock, h]

theorem fetch_command (s : State) (c : Cmd) (rest : Supply Cmd) (i : Instr) (hq : s.seq = .ready)
    (hc : s.cmdIn.pop freeCmd = some (c, rest)) (hd : decode c = .ok i) : fetch s = .run i { s with cmdIn := rest } := by
  simp only [fetch, hq, hc, hd]

theorem fetch_no_command (s : State) (hq : s.seq = .ready) (hc : s.cmdIn.pop freeCmd = none) : fetch s = .idle := by
  simp only [fetch, hq, hc]

theorem fetch_xact (s : State) (i : Instr) (hq : s.seq = .xact) (hi : inFlight s = .ok i) : fetch s = .run i s := by
  simp only [fetch, hq, hi]

theorem fetch_poll (s : State) (hq : s.seq = .poll) : fetch s = .run (.waitBusy s.curArg) s := by
  simp only [fetch, hq]

theorem fetch_loader (s : State) (hq : s.seq = .lhReset ∨ s.seq = .lhStream ∨ s.seq = .lhFlush) :
    fetch s = .run (.loadHex s.curArg) s := by
  rcases hq with hq | hq | hq <;> simp only [fetch, hq]

/-- Settles O39: a step that is no reset runs what `fetch` finds. -/
theorem stepRunsTheOperation : Obligations.StepRunsTheOperation := by
  intro s hr
  rw [step_of_no_rst s hr]
  refine ⟨fun c rest i hq hc hd => ?_, fun hq hc => ?_, fun i hq hi => ?_, fun hq => ?_, fun hq => ?_⟩
  · exact stepBlock_of_run _ _ i (fetch_command (useRstSample s) c rest i hq hc hd)
  · exact stepBlock_of_idle _ (fetch_no_command (useRstSample s) hq hc)
  · exact stepBlock_of_run _ _ i (fetch_xact (useRstSample s) i hq hi)
  · exact stepBlock_of_run _ _ _ (fetch_poll (useRstSample s) hq)
  · exact stepBlock_of_run _ _ _ (fetch_loader (useRstSample s) hq)

theorem step_next_of_no_rst {s t : State} (hr : rstNow s = false) (h : step s = .next t) : t = nextState (useRstSample s) := by
  rw [step_eq, hr, Host.Outcome.next.injEq] at h
  exact h.symm

/-- A step waits for the transport or takes a return. -/
theorem onReturn_cases (k : Answer → State → State) (s : State) :
    onReturn k s = s ∨
    ∃ a rest, s.txIn.pop freeAnswer = some (a, rest) ∧ onReturn k s = k a (recordReturn a { s with txIn := rest }) := by
  cases hpop : s.txIn.pop freeAnswer with
  | none => exact .inl (onReturn_none k s hpop)
  | some answered => exact .inr ⟨answered.1, answered.2, rfl, onReturn_some k s _ _ hpop⟩

/-- A step waits for the stream source or takes a token. -/
theorem onToken_cases (s : State) : onToken s = s ∨ ∃ t rest, onToken s = token t { s with hsIn := rest } := by
  cases hpop : s.hsIn.pop freeToken with
  | none => exact .inl (onToken_none s hpop)
  | some presented => exact .inr ⟨presented.1, presented.2, onToken_some s _ _ hpop⟩

/-! ### The invariant -/

/-- Settles O43: nothing is in flight, nothing was sent, and the loader registers are 0. -/
theorem resetSatisfiesInv : Obligations.ResetSatisfiesInv :=
  ⟨by decide, by decide, by decide, trivial, by simp [State.reset]⟩

/-! Requests have the sizes of R68. -/

theorem txSizes_read_le {n k : Nat} (h : (n, k) ∈ txSizes) : k ≤ 16 := by
  simp only [txSizes, List.mem_cons, Prod.mk.injEq, List.not_mem_nil, or_false] at h
  omega

theorem readBytes_length (rn : BitVec 5) (bytes : Payload) (h : rn.toNat ≤ 16) : (readBytes rn bytes).length = rn.toNat := by
  simpa [readBytes] using h

/-- A sized request makes a sized transaction, whatever the answer. -/
theorem Request.sized.tx {q : Request} (h : q.sized) (a : Answer) : (Event.tx q a.status (readBytes q.rn a.bytes)).sized :=
  ⟨h, readBytes_length _ _ (txSizes_read_le h.2)⟩

theorem Holds.sized {i : Instr} {s : State} (h : Holds i s) (hw : i.isWire = true) :
    Request.sized { w := s.fb.toList.take s.wn.toNat, wn := s.wn, rn := s.rn } := by
  obtain ⟨hbytes, hlen, hrn⟩ := h
  refine ⟨by rw [hbytes, hlen], ?_⟩
  rw [hlen, hrn]
  exact (Laws.frameForm_all i).2 hw

theorem page_request_sized (s : State) : Request.sized { w := (pb s).toList, wn := 20, rn := 0 } :=
  ⟨by simp, (by decide : ((20, 0) : Nat × Nat) ∈ txSizes)⟩

/-- The pending request of the operation in flight has a size of R68. -/
theorem request_sized {s : State} (h : PendingOk s) (hp : txPending s.seq = true) : (request s).sized := by
  unfold PendingOk at h
  unfold request
  cases hq : s.seq <;> simp only [hq, txPending, Bool.false_eq_true] at h hp ⊢
  case xact => obtain ⟨i, -, hw, hh⟩ := h; exact hh.sized hw
  case poll => exact h.2.sized rfl
  case lhReset => exact h.2.sized rfl
  case lhFlush => exact page_request_sized s

/-- In the LH states LOAD_HEX is in flight (spec/10_state.md R21). -/
theorem PendingOk.loader {s : State} (h : PendingOk s) (hq : s.seq = .lhReset ∨ s.seq = .lhStream ∨ s.seq = .lhFlush) : s.curOp = 22 := by
  unfold PendingOk at h
  rcases hq with hq | hq | hq <;> simp only [hq] at h
  · exact h.1
  · exact h
  · exact h

/-! What every step is made of keeps the invariant. -/

theorem inv_respond {s : State} (resp : Response) (h : Inv s) : Inv (respond resp s) := by
  obtain ⟨hcnt, hovf, hop, -, htrace⟩ := h
  exact ⟨hcnt, hovf, hop, trivial, List.forall_mem_append.mpr ⟨htrace, by simp [Event.sized]⟩⟩

theorem inv_recordReturn {s : State} (a : Answer) (hp : txPending s.seq = true) (h : Inv s) : Inv (recordReturn a s) := by
  obtain ⟨hcnt, hovf, hop, hpend, htrace⟩ := h
  rw [recordReturn_eq]
  exact ⟨hcnt, hovf, hop, hpend, List.forall_mem_append.mpr ⟨htrace, by simpa using (request_sized hpend hp).tx a⟩⟩

theorem inv_effectsIfOk {s : State} (i : Instr) (a : Answer) (h : Inv s) : Inv (effectsIfOk i a s) := by
  rw [effectsIfOk_eq]
  exact h

/-- After a return in LH_RESET or LH_FLUSH the stream goes on. -/
theorem inv_toStream {s : State} (hop : s.curOp = 22) (h : Inv s) : Inv { s with seq := .lhStream } := by
  obtain ⟨hcnt, hovf, hle, -, htrace⟩ := h
  exact ⟨hcnt, hovf, hle, hop, htrace⟩

theorem inv_onReturn {k : Answer → State → State} {s : State} (hp : txPending s.seq = true) (h : Inv s)
    (hk : ∀ a r, Inv r → r.seq = s.seq → Inv (k a r)) : Inv (onReturn k s) := by
  rcases onReturn_cases k s with hn | ⟨a, rest, -, hn⟩ <;> rw [hn]
  · exact h
  · exact hk a _ (inv_recordReturn a hp h) (by rw [recordReturn_eq])

theorem inv_pollReturn {s : State} (a : Answer) (h : Inv s) : Inv (pollReturn a s) := by
  have hcount : Inv (countPoll s) := h
  have hready : Inv (readyPoll a s) := by rw [readyPoll_eq]; exact h
  unfold pollReturn busyPoll
  split
  · split
    · exact inv_respond _ hcount
    · exact hcount
  · exact inv_respond _ hready

theorem inv_loaderReturn {s : State} (i : Instr) (a : Answer) (hq : s.seq = .lhReset ∨ s.seq = .lhStream ∨ s.seq = .lhFlush) (h : Inv s) :
    Inv { effectsIfOk i a s with seq := .lhStream } := by
  refine inv_toStream ?_ (inv_effectsIfOk i a h)
  obtain ⟨-, -, -, hpend, -⟩ := h
  rw [effectsIfOk_eq]
  exact hpend.loader hq

/-! The accept step. -/

/-- What an accepted command leaves in `cur_op`, `cur_arg` and `fb` names it again (spec/10_state.md R22, R23). -/
theorem decode_accepted (i : Instr) (rest : Buf) :
    decode { op := opsel i, arg := argOf i, buf := overlay (frameBytes i) rest } = .ok i := by
  cases i
  case programPage arg buf => exact congrArg (fun b => Except.ok (Instr.programPage arg b)) (overlay_full buf rest)
  all_goals rfl

theorem inv_startXact {i : Instr} {s : State} (hw : i.isWire = true) (hop : s.curOp = opsel i) (harg : s.curArg = argOf i) (h : Inv s) :
    Inv (startXact i s) := by
  obtain ⟨hcnt, hovf, hle, -, htrace⟩ := h
  refine ⟨hcnt, hovf, hle, ⟨i, ?_, hw, loadFrame_holds i s⟩, htrace⟩
  rw [← decode_accepted i (Config.fbTail s.draws), ← hop, ← harg]
  rfl

theorem inv_startPoll {s : State} (hop : s.curOp = 21) (h : Inv s) : Inv (startPoll s) := by
  obtain ⟨hcnt, hovf, hle, -, htrace⟩ := h
  exact ⟨hcnt, hovf, hle, ⟨hop, loadFrame_holds (.isBusy 0) _⟩, htrace⟩

theorem inv_startLoad {s : State} (hop : s.curOp = 22) (h : Inv s) : Inv (startLoad s) := by
  obtain ⟨-, -, hle, -, htrace⟩ := h
  rw [startLoad_eq]
  exact ⟨Nat.zero_le 15, fun hovf => absurd hovf Bool.false_ne_true, hle, ⟨hop, loadFrame_holds (.resetCfgAddr 0) _⟩, htrace⟩

theorem inv_startOf {i : Instr} {s : State} (hop : s.curOp = opsel i) (harg : s.curArg = argOf i) (h : Inv s) : Inv (startOf i s) := by
  rcases wire_or_composite i with hw | ⟨arg, rfl⟩ | ⟨arg, rfl⟩
  · rw [startOf_wire i hw]; exact inv_startXact hw hop harg h
  · exact inv_startPoll hop h
  · exact inv_startLoad hop h

theorem inv_accept {s : State} (i : Instr) (hq : s.seq = .ready) (h : Inv s) : Inv (accept i (startOf i) s) := by
  unfold accept
  split
  · exact inv_respond _ h
  · rw [acceptOrdered_eq]
    split
    · exact inv_respond _ h
    · obtain ⟨hcnt, hovf, -, -, htrace⟩ := h
      refine inv_startOf rfl rfl ⟨hcnt, hovf, (Laws.frameForm_all i).1, ?_, htrace⟩
      unfold PendingOk
      simp only [hq]

/-! The tokens of LH_STREAM. -/

theorem inv_dropDigit {s : State} (h : Inv s) : Inv (dropDigit s) := by
  obtain ⟨hcnt, hovf, hop, hpend, htrace⟩ := h
  rw [dropDigit_eq]
  exact ⟨hcnt, hovf, hop, hpend, List.forall_mem_append.mpr ⟨htrace, by split <;> simp [Event.sized]⟩⟩

theorem inv_noteOverflow {s : State} (h : Inv s) : Inv (noteOverflow s) := by
  obtain ⟨hcnt, hovf, hop, hpend, htrace⟩ := h
  rw [noteOverflow_eq]
  refine ⟨hcnt, fun hor => ?_, hop, hpend, List.forall_mem_append.mpr ⟨htrace, by split <;> simp [Event.sized]⟩⟩
  exact (Bool.or_eq_true_iff.mp hor).elim hovf id

theorem inv_separator {s : State} (h : Inv s) : Inv (separator s) := by
  obtain ⟨-, -, hop, hpend, htrace⟩ := inv_dropDigit h
  exact ⟨Nat.zero_le 15, fun hovf => absurd hovf Bool.false_ne_true, hop, hpend, htrace⟩

theorem inv_endOfStream {s : State} (h : Inv s) : Inv (endOfStream s) := inv_respond _ (inv_dropDigit h)

/-- The sixteenth byte flushes the page, so `cnt` is at most 15 between steps (spec/10_state.md R45 b). -/
theorem inv_store {s : State} (b : Byte) (hq : s.seq = .lhStream) (h : Inv s) : Inv (flushIfFull (putByte b s)) := by
  obtain ⟨hcnt, hovf, hop, hpend, htrace⟩ := h
  unfold flushIfFull
  split
  case isTrue =>
    rw [flush_eq]
    exact ⟨Nat.zero_le 15, fun _ => rfl, hop, hpend.loader (.inr (.inl hq)), htrace⟩
  case isFalse hne =>
    refine ⟨?_, hovf, hop, hpend, htrace⟩
    rw [putByte_cnt] at hne ⊢
    bv_omega

theorem inv_hexDigit {s : State} (d : BitVec 4) (hq : s.seq = .lhStream) (h : Inv s) : Inv (hexDigit d s) := by
  unfold hexDigit
  split
  · refine inv_store _ ?_ (inv_noteOverflow (s := { s with haveHi := false }) h)
    rw [noteOverflow_eq]
    exact hq
  · exact h

theorem inv_token {s : State} (t : Token) (hq : s.seq = .lhStream) (h : Inv s) : Inv (token t s) := by
  cases t with
  | eos => exact inv_endOfStream h
  | char c =>
    cases hv : hexValue c with
    | some d => rw [token_digit c d hv]; exact inv_hexDigit d hq h
    | none => rw [token_separator c hv]; exact inv_separator h

theorem inv_onToken {s : State} (hq : s.seq = .lhStream) (h : Inv s) : Inv (onToken s) := by
  rcases onToken_cases s with hn | ⟨t, rest, hn⟩ <;> rw [hn]
  · exact h
  · exact inv_token t hq h

/-! The step. -/

theorem inv_rst {s : State} (h : Inv s) : Inv (rst s) := by
  obtain ⟨hcnt, hovf, hop, -, -⟩ := resetSatisfiesInv
  obtain ⟨-, -, -, -, htrace⟩ := h
  exact ⟨hcnt, hovf, hop, trivial, htrace⟩

theorem inv_nextState {s : State} (h : Inv s) : Inv (nextState s) := by
  rcases nextState_cases s with ⟨-, hn⟩ | ⟨c, rest, i, hq, -, -, hn⟩ | ⟨c, rest, e, -, -, -, hn⟩ | ⟨i, hq, -, -, hn⟩ |
    ⟨hq, hn⟩ | ⟨hq, hn⟩ | ⟨hq, hn⟩ | ⟨hq, hn⟩ <;> rw [hn]
  · exact h
  · exact inv_accept i hq h
  · exact inv_respond _ h
  · exact inv_onReturn (by rw [hq]; rfl) h fun a r hr _ => inv_respond _ (inv_effectsIfOk i a hr)
  · exact inv_onReturn (by rw [hq]; rfl) h fun a r hr _ => inv_pollReturn a hr
  · exact inv_onReturn (by rw [hq]; rfl) h fun a r hr hs => inv_loaderReturn _ a (.inl (hs.trans hq)) hr
  · exact inv_onToken hq h
  · exact inv_onReturn (by rw [hq]; rfl) h fun a r hr hs => inv_loaderReturn _ a (.inr (.inr (hs.trans hq))) hr

/-- Settles O44: a reset and every alternative of a step keep the invariant. -/
theorem stepKeepsInv : Obligations.StepKeepsInv := by
  intro s t h ht
  rw [step_eq, Host.Outcome.next.injEq] at ht
  subst ht
  cases rstNow s
  · exact inv_nextState (s := useRstSample s) h
  · exact inv_rst (s := useRstSample s) h

/-! ### The sticky flags -/

/-- `s` with `seq_viol` raised by `v` and `xfail` by `x`. -/
def State.raise (v x : Bool) (s : State) : State := { s with seqViol := s.seqViol || v, xfail := s.xfail || x }

/-- `F` reads neither flag and never lowers one: it commutes with raising them. As for `Blind`, what commutes is closed under composition, choice
and reading, so each operation is a line. -/
def Raises (F : State → State) : Prop := ∀ v x, Function.Commute F (State.raise v x)

theorem Raises.comp {F G : State → State} (hF : Raises F) (hG : Raises G) : Raises (F ∘ G) :=
  fun v x => (hF v x).comp_left (hG v x)

/-- A choice that does not ask for the flags. -/
theorem Raises.ite {p : State → Prop} [DecidablePred p] {F G : State → State} (hp : ∀ v x s, p (s.raise v x) ↔ p s)
    (hF : Raises F) (hG : Raises G) : Raises (fun s => if p s then F s else G s) := by
  intro v x s
  by_cases h : p s
  · simpa only [hp v x s, h, if_true] using hF v x s
  · simpa only [hp v x s, h, if_false] using hG v x s

/-- What is read on the way is none of the flags. -/
theorem Raises.read {α : Type} {y : State → α} {F : α → State → State} (hy : ∀ v x s, y (s.raise v x) = y s)
    (hF : ∀ a, Raises (F a)) : Raises (fun s => F (y s) s) := by
  intro v x s
  simpa only [hy v x s] using hF (y s) v x s

theorem Raises.id : Raises (fun s => s) := fun _ _ _ => rfl

@[simp] theorem legal_raise (i : Instr) (v x : Bool) (s : State) : legal i (s.raise v x) = legal i s :=
  legal_congr i s _ rfl rfl rfl rfl

theorem raises_respond (resp : Response) : Raises (respond resp) := fun _ _ _ => rfl

theorem raises_refuse (op : BitVec 5) (cause : Err) : Raises (refuse op cause) := fun _ _ _ => rfl

theorem raises_violation : Raises (fun s => { s with seqViol := true }) := fun _ _ _ => rfl

theorem raises_issueCheck (i : Instr) : Raises (issueCheck i) :=
  Raises.ite (p := fun s => legal i s = true) (by simp) Raises.id raises_violation

theorem raises_startOf (i : Instr) : Raises (startOf i) := by
  rcases wire_or_composite i with hw | ⟨arg, rfl⟩ | ⟨arg, rfl⟩
  · rw [startOf_wire i hw]; exact fun _ _ _ => rfl
  · exact fun _ _ _ => rfl
  · exact Raises.comp (F := fun s => { loadFrame (.resetCfgAddr 0) s with seq := .lhReset }) (fun _ _ _ => rfl)
      ((raises_issueCheck (.resetCfgAddr 0)).comp (G := clearLoader) fun _ _ _ => rfl)

theorem raises_acceptOrdered (i : Instr) : Raises (acceptOrdered i (startOf i)) := by
  refine Raises.ite (p := fun s => legal i s = true) (by simp) ?_ ?_
  · exact (raises_startOf i).comp fun _ _ _ => rfl
  · refine Raises.ite (p := fun s => s.params.harden = true) (fun _ _ _ => Iff.rfl) ?_ ?_
    · exact (raises_refuse _ _).comp raises_violation
    · exact (raises_startOf i).comp fun _ _ _ => rfl

theorem raises_accept (i : Instr) : Raises (accept i (startOf i)) :=
  Raises.ite (p := fun s => rangeRefused i s.params = true) (fun _ _ _ => Iff.rfl) (raises_refuse _ _) (raises_acceptOrdered i)

theorem raises_recordReturn (a : Answer) : Raises (recordReturn a) :=
  Raises.ite (p := fun _ => a.status = 0) (fun _ _ _ => Iff.rfl) (fun _ _ _ => rfl) fun _ _ _ => rfl

theorem raises_effectsIfOk (i : Instr) (a : Answer) : Raises (effectsIfOk i a) := by
  have hflags : Raises (flagEffects i a.bytes[0]) := fun v x s => by cases i <;> rfl
  have hmove (ok : Bool) : Raises (moveLife i ok) :=
    Raises.ite (p := fun _ => ok = true) (fun _ _ _ => Iff.rfl) (fun _ _ _ => rfl) Raises.id
  exact Raises.ite (p := fun _ => a.status = 0) (fun _ _ _ => Iff.rfl)
    (Raises.read (y := legal i) (legal_raise i) fun ok => (hmove ok).comp hflags) Raises.id

theorem raises_onReturn {k : Answer → State → State} (hk : ∀ a, Raises (k a)) : Raises (onReturn k) := by
  intro v x s
  cases hpop : s.txIn.pop freeAnswer with
  | none => rw [onReturn_none k s hpop]; exact onReturn_none k _ hpop
  | some answered =>
    obtain ⟨a, rest⟩ := answered
    rw [onReturn_some k s a rest hpop]
    exact (onReturn_some k (s.raise v x) a rest hpop).trans ((hk a).comp (raises_recordReturn a) v x { s with txIn := rest })

theorem raises_xactReturn (i : Instr) (a : Answer) : Raises (xactReturn i a) :=
  Raises.read (y := xactResponse a) (fun _ _ _ => rfl) fun resp => (raises_respond resp).comp (raises_effectsIfOk i a)

theorem raises_busyPoll (a : Answer) : Raises (busyPoll a) :=
  Raises.ite (p := fun s => limitReached s = true) (fun _ _ _ => Iff.rfl) (fun _ _ _ => rfl) Raises.id

theorem raises_readyPoll (a : Answer) : Raises (readyPoll a) :=
  Raises.ite (p := fun _ => a.status = 0) (fun _ _ _ => Iff.rfl) (fun _ _ _ => rfl) Raises.id

theorem raises_pollReturn (a : Answer) : Raises (pollReturn a) := by
  refine Raises.ite (p := fun _ => busyBit a.bytes[0] = true) (fun _ _ _ => Iff.rfl) ?_ ?_
  · exact (raises_busyPoll a).comp (G := countPoll) fun _ _ _ => rfl
  · exact Raises.read (y := pollResponse .ok a) (fun _ _ _ => rfl) fun resp => (raises_respond resp).comp (raises_readyPoll a)

/-- The stream goes on after a return in LH_RESET or LH_FLUSH. -/
theorem raises_toStream : Raises (fun s => { s with seq := .lhStream }) := fun _ _ _ => rfl

theorem raises_resetReturn (a : Answer) : Raises (resetReturn a) := raises_toStream.comp (raises_effectsIfOk (.resetCfgAddr 0) a)

theorem raises_flushReturn (a : Answer) : Raises (flushReturn a) :=
  Raises.read (y := pb) (fun _ _ _ => rfl) fun page => raises_toStream.comp (raises_effectsIfOk (.programPage 0 page) a)

/-! The tokens. -/

theorem raises_flush : Raises flush := by
  intro v x s
  have hlegal : legal (.programPage 0 (pb (s.raise v x))) (s.raise v x) = legal (.programPage 0 (pb s)) s := legal_raise _ v x s
  rw [flush_eq, flush_eq, hlegal]
  simp only [State.raise, Bool.or_right_comm]

theorem raises_noteOverflow : Raises noteOverflow :=
  Raises.ite (p := fun s => (s.recFull && !s.recOvf) = true) (fun _ _ _ => Iff.rfl) (fun _ _ _ => rfl) Raises.id

theorem raises_dropDigit : Raises dropDigit :=
  Raises.ite (p := fun s => s.haveHi = true) (fun _ _ _ => Iff.rfl) (fun _ _ _ => rfl) Raises.id

theorem raises_flushIfFull : Raises flushIfFull :=
  Raises.ite (p := fun s => s.cnt = 16) (fun _ _ _ => Iff.rfl) raises_flush Raises.id

theorem raises_secondDigit (d : BitVec 4) : Raises (secondDigit d) :=
  Raises.read (y := fun s => hexByte s.hiNib d) (fun _ _ _ => rfl) fun b =>
    raises_flushIfFull.comp (Raises.comp (F := putByte b) (fun _ _ _ => rfl)
      (raises_noteOverflow.comp (G := fun s => { s with haveHi := false }) fun _ _ _ => rfl))

theorem raises_hexDigit (d : BitVec 4) : Raises (hexDigit d) :=
  Raises.ite (p := fun s => s.haveHi = true) (fun _ _ _ => Iff.rfl) (raises_secondDigit d) fun _ _ _ => rfl

theorem raises_separator : Raises separator :=
  Raises.comp (F := fun s => { s with cnt := 0, recFull := false, recOvf := false }) (fun _ _ _ => rfl) raises_dropDigit

theorem raises_endOfStream : Raises endOfStream :=
  (Raises.read (y := loadResponse) (fun _ _ _ => rfl) raises_respond).comp raises_dropDigit

theorem raises_token (t : Token) : Raises (token t) := by
  cases t with
  | eos => exact raises_endOfStream
  | char c =>
    cases hv : hexValue c with
    | some d => rw [token_digit c d hv]; exact raises_hexDigit d
    | none => rw [token_separator c hv]; exact raises_separator

theorem raises_onToken : Raises onToken := by
  intro v x s
  cases hpop : s.hsIn.pop freeToken with
  | none => rw [onToken_none s hpop]; exact onToken_none _ hpop
  | some presented =>
    obtain ⟨t, rest⟩ := presented
    rw [onToken_some s t rest hpop]
    exact (onToken_some (s.raise v x) t rest hpop).trans (raises_token t v x { s with hsIn := rest })

theorem raises_nextState : Raises nextState := by
  intro v x s
  rcases nextState_cases s with ⟨hn, h⟩ | ⟨c, rest, i, hq, hc, hd, h⟩ | ⟨c, rest, e, hq, hc, hd, h⟩ | ⟨i, hq, hf, hw, h⟩ |
    ⟨hq, h⟩ | ⟨hq, h⟩ | ⟨hq, h⟩ | ⟨hq, h⟩ <;> rw [h]
  · exact nextState_nothing _ hn
  · exact (nextState_accept (s.raise v x) c rest i hq hc hd).trans (raises_accept i v x { s with cmdIn := rest })
  · exact nextState_illegal (s.raise v x) c rest e hq hc hd
  · exact (nextState_xact (s.raise v x) i hq hf hw).trans (raises_onReturn (raises_xactReturn i) v x s)
  · exact (nextState_poll (s.raise v x) hq).trans (raises_onReturn raises_pollReturn v x s)
  · exact (nextState_lhReset (s.raise v x) hq).trans (raises_onReturn raises_resetReturn v x s)
  · exact (nextState_lhStream (s.raise v x) hq).trans (raises_onToken v x s)
  · exact (nextState_lhFlush (s.raise v x) hq).trans (raises_onReturn raises_flushReturn v x s)

/-- Raising what is raised already changes nothing, so the step leaves it raised. -/
theorem nextState_sticky (s : State) :
    (s.seqViol = true → (nextState s).seqViol = true) ∧ (s.xfail = true → (nextState s).xfail = true) := by
  have hs : nextState s = (nextState s).raise s.seqViol s.xfail := by
    have hself : s.raise s.seqViol s.xfail = s := by simp [State.raise]
    simpa only [hself] using raises_nextState s.seqViol s.xfail s
  rw [hs]
  exact ⟨fun h => by simp [State.raise, h], fun h => by simp [State.raise, h]⟩

/-- Settles O46: a step commutes with raising the flags. -/
theorem stickyFlagsStay : Obligations.StickyFlagsStay := by
  intro s t hr h
  rw [step_next_of_no_rst hr h]
  exact nextState_sticky (useRstSample s)

/-- Both states are one state with `seq_viol` low, raised or not. -/
theorem nextState_seqViol (s : State) (b : Bool) :
    ∃ b', nextState { s with seqViol := b } = { nextState s with seqViol := b' } := by
  have hfrom (v : Bool) : nextState { s with seqViol := v } = (nextState { s with seqViol := false }).raise v false := by
    simpa [State.raise] using raises_nextState v false { s with seqViol := false }
  have hs : nextState s = (nextState { s with seqViol := false }).raise s.seqViol false := hfrom s.seqViol
  exact ⟨_, by rw [hs, hfrom b]; rfl⟩

/-- Settles O54: a step commutes with raising `seq_viol`, and a reset clears it. -/
theorem seqViolIsInert : Obligations.SeqViolIsInert := by
  intro s t b h
  have hrst : rstNow { s with seqViol := b } = rstNow s := rfl
  rw [step_eq, Host.Outcome.next.injEq] at h
  subst h
  simp only [step_eq, hrst, Host.Outcome.next.injEq]
  cases rstNow s
  · exact nextState_seqViol (useRstSample s) b
  · exact ⟨false, rfl⟩

/-! ### The parameters and `life` -/

/-- `t` has the parameters and the lifecycle state of `s`. -/
def SameParamsLife (s t : State) : Prop := t.params = s.params ∧ t.life = s.life

theorem SameParamsLife.trans {s t u : State} (h : SameParamsLife s t) (h' : SameParamsLife t u) : SameParamsLife s u :=
  ⟨h'.1.trans h.1, h'.2.trans h.2⟩

theorem startOf_params_life (i : Instr) (s : State) : SameParamsLife s (startOf i s) := by
  rcases wire_or_composite i with hw | ⟨arg, rfl⟩ | ⟨arg, rfl⟩
  · rw [startOf_wire i hw]; exact ⟨rfl, rfl⟩
  · exact ⟨rfl, rfl⟩
  · rw [startOf, startLoad_eq]; exact ⟨rfl, rfl⟩

theorem accept_params_life (i : Instr) (s : State) : SameParamsLife s (accept i (startOf i) s) := by
  unfold accept
  split
  · exact ⟨rfl, rfl⟩
  · rw [acceptOrdered_eq]
    split
    · exact ⟨rfl, rfl⟩
    · exact startOf_params_life i _

theorem pollReturn_params_life (a : Answer) (s : State) : SameParamsLife s (pollReturn a s) := by
  unfold pollReturn
  split
  · unfold busyPoll; split <;> exact ⟨rfl, rfl⟩
  · rw [readyPoll_eq]; exact ⟨rfl, rfl⟩

theorem noteOverflow_params_life (s : State) : SameParamsLife s (noteOverflow s) := by
  rw [noteOverflow_eq]; exact ⟨rfl, rfl⟩

theorem flushIfFull_params_life (s : State) : SameParamsLife s (flushIfFull s) := by
  unfold flushIfFull
  split
  · rw [flush_eq]; exact ⟨rfl, rfl⟩
  · exact ⟨rfl, rfl⟩

theorem secondDigit_params_life (d : BitVec 4) (s : State) : SameParamsLife s (secondDigit d s) :=
  (noteOverflow_params_life { s with haveHi := false }).trans (flushIfFull_params_life (putByte (hexByte s.hiNib d) _))

theorem token_params_life (t : Token) (s : State) : SameParamsLife s (token t s) := by
  cases t with
  | eos => rw [token, endOfStream, dropDigit_eq]; exact ⟨rfl, rfl⟩
  | char c =>
    cases hv : hexValue c with
    | some d =>
      rw [token_digit c d hv, hexDigit]
      split
      · exact secondDigit_params_life d s
      · exact ⟨rfl, rfl⟩
    | none => rw [token_separator c hv, separator, dropDigit_eq]; exact ⟨rfl, rfl⟩

theorem recordReturn_params_life (a : Answer) (s : State) : SameParamsLife s (recordReturn a s) := by
  rw [recordReturn_eq]; exact ⟨rfl, rfl⟩

theorem effectsIfOk_params (i : Instr) (a : Answer) (s : State) : (effectsIfOk i a s).params = s.params := by
  rw [effectsIfOk_eq]

theorem onReturn_params {k : Answer → State → State} (hk : ∀ a s, (k a s).params = s.params) (s : State) :
    (onReturn k s).params = s.params := by
  rcases onReturn_cases k s with hn | ⟨a, rest, -, hn⟩ <;> rw [hn]
  rw [hk, (recordReturn_params_life a _).1]

theorem onToken_params_life (s : State) : SameParamsLife s (onToken s) := by
  rcases onToken_cases s with hn | ⟨t, rest, hn⟩ <;> rw [hn]
  · exact ⟨rfl, rfl⟩
  · exact token_params_life t { s with hsIn := rest }

theorem nextState_params (s : State) : (nextState s).params = s.params := by
  rcases nextState_cases s with ⟨-, h⟩ | ⟨c, rest, i, -, -, -, h⟩ | ⟨c, rest, e, -, -, -, h⟩ | ⟨i, -, -, -, h⟩ |
    ⟨-, h⟩ | ⟨-, h⟩ | ⟨-, h⟩ | ⟨-, h⟩ <;> rw [h]
  · exact (accept_params_life i _).1
  · rfl
  · exact onReturn_params (k := xactReturn i) (effectsIfOk_params i) s
  · exact onReturn_params (fun a r => (pollReturn_params_life a r).1) s
  · exact onReturn_params (k := resetReturn) (effectsIfOk_params _) s
  · exact (onToken_params_life s).1
  · exact onReturn_params (k := flushReturn) (fun a s => effectsIfOk_params (.programPage 0 (pb s)) a s) s

/-- Settles O47: a step and a reset keep the parameters, and the prefix is made of them. -/
theorem parametersAndPrefixFixed : Obligations.ParametersAndPrefixFixed := by
  intro s t h
  have hp : t.params = s.params := by
    rw [step_eq, Host.Outcome.next.injEq] at h
    subst h
    cases rstNow s
    · exact nextState_params (useRstSample s)
    · rfl
  refine ⟨hp, ?_⟩
  rw [pb_toList, hp]
  rfl

/-- The effects of a frame move `life` only as its class says, when the frame is in order and returned status 0. -/
theorem effectsIfOk_moves_life {i : Instr} {a : Answer} {s : State} (h : (effectsIfOk i a s).life ≠ s.life) :
    a.status = 0 ∧ legal i s = true ∧ lifeNext (lifeClass i) s.life = some (effectsIfOk i a s).life := by
  by_cases hok : a.status = 0
  · simp only [effectsIfOk_eq, hok, if_true, lifeAfter] at h ⊢
    cases hl : legal i s
    · simp [hl] at h
    · cases hn : lifeNext (lifeClass i) s.life
      · simp [hl, hn] at h
      · simp
  · exact absurd (by rw [effectsIfOk, if_neg hok]) h

theorem onReturn_moves_life {i : Instr} {k : Answer → State → State} {s : State}
    (hk : ∀ a rest, (k a (recordReturn a { s with txIn := rest })).life = (effectsIfOk i a (recordReturn a { s with txIn := rest })).life)
    (h : (onReturn k s).life ≠ s.life) :
    ∃ a rest, s.txIn.pop freeAnswer = some (a, rest) ∧ a.status = 0 ∧ legal i s = true ∧
      lifeNext (lifeClass i) s.life = some (onReturn k s).life := by
  rcases onReturn_cases k s with hw | ⟨a, rest, hpop, hr⟩
  · exact absurd (congrArg State.life hw) h
  rw [hr, hk a rest] at h ⊢
  obtain ⟨-, hlife⟩ := recordReturn_params_life a { s with txIn := rest }
  have hlegal : legal i (recordReturn a { s with txIn := rest }) = legal i s := by
    rw [recordReturn_eq]; exact legal_congr i s _ rfl rfl rfl rfl
  obtain ⟨hok, hl, hn⟩ := effectsIfOk_moves_life (h.trans_eq hlife.symm)
  rw [hlegal] at hl
  rw [hlife] at hn
  exact ⟨a, rest, hpop, hok, hl, hn⟩

theorem onReturn_poll_life (s : State) : (onReturn pollReturn s).life = s.life := by
  rcases onReturn_cases pollReturn s with hn | ⟨a, rest, -, hn⟩ <;> rw [hn]
  rw [(pollReturn_params_life a _).2, (recordReturn_params_life a _).2]

/-- The frame in flight, for the three returns that have effects on the lifecycle. -/
theorem nextState_moves_life {s : State} (h : (nextState s).life ≠ s.life) :
    ∃ (i : Instr) (a : Answer) (rest : Supply Answer),
      s.txIn.pop freeAnswer = some (a, rest) ∧ a.status = 0 ∧ legal i s = true ∧
      lifeNext (lifeClass i) s.life = some (nextState s).life ∧
      (s.seq = .xact ∧ inFlight s = .ok i ∨ s.seq = .lhReset ∧ i = .resetCfgAddr 0 ∨
        s.seq = .lhFlush ∧ i = .programPage 0 (pb s)) := by
  rcases nextState_cases s with ⟨-, hn⟩ | ⟨c, rest, i, -, -, -, hn⟩ | ⟨c, rest, e, -, -, -, hn⟩ | ⟨i, hq, hf, -, hn⟩ |
    ⟨-, hn⟩ | ⟨hq, hn⟩ | ⟨-, hn⟩ | ⟨hq, hn⟩ <;> rw [hn] at h ⊢
  · exact absurd rfl h
  · exact absurd (accept_params_life i _).2 h
  · exact absurd rfl h
  · obtain ⟨a, rest, hpop, hok, hl, hm⟩ := onReturn_moves_life (i := i) (k := xactReturn i) (fun _ _ => rfl) h
    exact ⟨i, a, rest, hpop, hok, hl, hm, .inl ⟨hq, hf⟩⟩
  · exact absurd (onReturn_poll_life s) h
  · obtain ⟨a, rest, hpop, hok, hl, hm⟩ := onReturn_moves_life (i := .resetCfgAddr 0) (k := resetReturn) (fun _ _ => rfl) h
    exact ⟨_, a, rest, hpop, hok, hl, hm, .inr (.inl ⟨hq, rfl⟩)⟩
  · exact absurd (onToken_params_life s).2 h
  · have hpb (a : Answer) (rest : Supply Answer) : pb (recordReturn a { s with txIn := rest }) = pb s := by
      rw [recordReturn_eq]; rfl
    obtain ⟨a, rest, hpop, hok, hl, hm⟩ := onReturn_moves_life (i := .programPage 0 (pb s)) (fun a rest => by rw [flushReturn, hpb]) h
    exact ⟨_, a, rest, hpop, hok, hl, hm, .inr (.inr ⟨hq, rfl⟩)⟩

/-- Settles O48: only the three returns with effects move `life`, each by the frame in flight. -/
theorem lifeMovesOnlyInOrder : Obligations.LifeMovesOnlyInOrder := by
  intro s t hr h hne
  rw [step_next_of_no_rst hr h] at hne ⊢
  obtain ⟨i, a, rest, hpop, hok, hl, hm⟩ := nextState_moves_life hne
  exact ⟨i, a, rest, hpop, hok, (legal_congr i s _ rfl rfl rfl rfl).symm.trans hl, hm⟩

end Sys2Proof.Machine

/-! PROOFS. The traffic with the device of spec/20_memory.md: what is sent in a step, and when the loader sends a page. -/

namespace Sys2Proof.Machine

/-! ### The frames that are sent -/

/-- `F` completes no transaction. -/
def Silent (F : State → State) : Prop := ∀ s, framesSent (F s) = framesSent s

/-- Only a transaction is a frame: what is listed behind it may be responses and anomalies. -/
theorem framesSent_append {s t : State} {events : List Event} (h : t.trace = s.trace ++ events)
    (hw : events.filterMap Event.written = []) : framesSent t = framesSent s := by
  rw [framesSent, h, List.filterMap_append, hw, List.append_nil, framesSent]

theorem silent_respond (resp : Response) : Silent (respond resp) := fun _ => framesSent_append rfl rfl

theorem silent_refuse (op : BitVec 5) (cause : Err) : Silent (refuse op cause) := silent_respond _

theorem silent_startOf (i : Instr) : Silent (startOf i) := by
  intro s
  rcases wire_or_composite i with hw | ⟨arg, rfl⟩ | ⟨arg, rfl⟩
  · rw [startOf_wire i hw]; rfl
  · rfl
  · rw [startOf, startLoad_eq]; rfl

theorem silent_accept (i : Instr) : Silent (accept i (startOf i)) := by
  intro s
  unfold accept
  split
  · exact silent_refuse _ _ s
  · rw [acceptOrdered_eq]
    split
    · exact silent_refuse _ _ { s with seqViol := true }
    · exact silent_startOf i _

theorem silent_effectsIfOk (i : Instr) (a : Answer) : Silent (effectsIfOk i a) := by
  intro s
  rw [effectsIfOk_eq]
  rfl

theorem silent_xactReturn (i : Instr) (a : Answer) : Silent (xactReturn i a) :=
  fun s => (silent_respond _ _).trans (silent_effectsIfOk i a s)

theorem silent_pollReturn (a : Answer) : Silent (pollReturn a) := by
  intro s
  unfold pollReturn
  split
  · unfold busyPoll
    split
    · exact silent_respond _ (countPoll s)
    · rfl
  · rw [readyPoll_eq]; exact silent_respond _ _

theorem silent_resetReturn (a : Answer) : Silent (resetReturn a) := silent_effectsIfOk (.resetCfgAddr 0) a

theorem silent_flushReturn (a : Answer) : Silent (flushReturn a) := fun s => silent_effectsIfOk (.programPage 0 (pb s)) a s

theorem silent_dropDigit : Silent dropDigit := by
  intro s
  rw [dropDigit_eq]
  exact framesSent_append rfl (by split <;> rfl)

theorem silent_noteOverflow : Silent noteOverflow := by
  intro s
  rw [noteOverflow_eq]
  exact framesSent_append rfl (by split <;> rfl)

theorem silent_flushIfFull : Silent flushIfFull := by
  intro s
  unfold flushIfFull
  split
  · rw [flush_eq]; rfl
  · rfl

/-- A full page becomes pending here; it is sent at its return. -/
theorem silent_secondDigit (d : BitVec 4) : Silent (secondDigit d) :=
  fun s => (silent_flushIfFull (putByte (hexByte s.hiNib d) _)).trans (silent_noteOverflow { s with haveHi := false })

theorem silent_token (t : Token) : Silent (token t) := by
  intro s
  cases t with
  | eos => exact (silent_respond _ _).trans (silent_dropDigit s)
  | char c =>
    cases hv : hexValue c with
    | some d =>
      rw [token_digit c d hv, hexDigit]
      split
      · exact silent_secondDigit d s
      · rfl
    | none => rw [token_separator c hv]; exact silent_dropDigit s

/-- The common part of a return completes the pending request. -/
theorem framesSent_recordReturn (a : Answer) (s : State) : framesSent (recordReturn a s) = framesSent s ++ [(request s).w] := by
  rw [recordReturn_eq, framesSent, List.filterMap_append]
  rfl

theorem framesSent_onReturn {k : Answer → State → State} (hk : ∀ a, Silent (k a)) {s : State} (h : s.txIn.pop freeAnswer ≠ none) :
    framesSent (onReturn k s) = framesSent s ++ [(request s).w] := by
  obtain ⟨⟨a, rest⟩, hpop⟩ := Option.ne_none_iff_exists'.mp h
  rw [onReturn_some k s a rest hpop, hk a, framesSent_recordReturn]
  rfl

/-! ### The step -/

/-- The op select codes 0 to 20 are the wire commands (spec/30_encoding.md R100). -/
theorem decode_wire (c : Cmd) (h : c.op.toNat ≤ 20) : ∃ i, decode c = .ok i ∧ i.isWire = true := by
  unfold decode
  generalize c.op.toNat = n at h
  interval_cases n <;> exact ⟨_, rfl, rfl⟩

/-- In a transaction state the step is one return, whose own part sends nothing more (spec/40_sequencer.md R136). -/
theorem nextState_pending {s : State} (hp : txPending s.seq = true) (hop : s.seq = .xact → s.curOp.toNat ≤ 20) :
    ∃ k : Answer → State → State, (∀ a, Silent (k a)) ∧ nextState s = onReturn k s := by
  cases hq : s.seq
  case xact =>
    obtain ⟨i, hf, hw⟩ := decode_wire { op := s.curOp, arg := s.curArg, buf := s.fb } (hop hq)
    exact ⟨xactReturn i, silent_xactReturn i, nextState_xact s i hq hf hw⟩
  case poll => exact ⟨pollReturn, silent_pollReturn, nextState_poll s hq⟩
  case lhReset => exact ⟨resetReturn, silent_resetReturn, nextState_lhReset s hq⟩
  case lhFlush => exact ⟨flushReturn, silent_flushReturn, nextState_lhFlush s hq⟩
  all_goals simp [hq, txPending] at hp

theorem framesSent_nextState_ready {s : State} (hq : s.seq = .ready) : framesSent (nextState s) = framesSent s := by
  cases hc : s.cmdIn.pop freeCmd with
  | none => rw [nextState_idle s hq hc]
  | some taken =>
    obtain ⟨c, rest⟩ := taken
    cases hd : decode c with
    | ok i => rw [nextState_accept s c rest i hq hc hd]; exact silent_accept i { s with cmdIn := rest }
    | error e => rw [nextState_illegal s c rest e hq hc hd]; exact silent_refuse _ _ { s with cmdIn := rest }

theorem framesSent_nextState_lhStream {s : State} (hq : s.seq = .lhStream) : framesSent (nextState s) = framesSent s := by
  rw [nextState_lhStream s hq]
  rcases onToken_cases s with hn | ⟨t, rest, hn⟩ <;> rw [hn]
  exact silent_token t { s with hsIn := rest }

/-- Settles O50: a return completes the pending request and nothing else does. -/
theorem oneFramePerReturn : Obligations.OneFramePerReturn := by
  intro s t hr h
  rw [step_next_of_no_rst hr h]
  refine ⟨?_, fun hp hans hop => ?_⟩
  · rintro (hq | hq)
    · exact framesSent_nextState_ready (s := useRstSample s) hq
    · exact framesSent_nextState_lhStream (s := useRstSample s) hq
  · obtain ⟨k, hk, hn⟩ := nextState_pending (s := useRstSample s) hp hop
    rw [hn]
    exact framesSent_onReturn hk (s := useRstSample s) hans

/-! ### When a page becomes pending -/

/-- A command that is taken is refused, or started in a state other than those of the stream (spec/40_sequencer.md R130). -/
theorem accept_seq (i : Instr) (s : State) :
    (accept i (startOf i) s).seq = .ready ∨ (accept i (startOf i) s).seq = .xact ∨ (accept i (startOf i) s).seq = .poll ∨
      (accept i (startOf i) s).seq = .lhReset := by
  unfold accept
  split
  · exact .inl rfl
  · rw [acceptOrdered_eq]
    split
    · exact .inl rfl
    · rcases wire_or_composite i with hw | ⟨arg, rfl⟩ | ⟨arg, rfl⟩
      · rw [startOf_wire i hw]; exact .inr (.inl rfl)
      · exact .inr (.inr (.inl rfl))
      · exact .inr (.inr (.inr rfl))

theorem pollReturn_seq (a : Answer) (s : State) : (pollReturn a s).seq = .ready ∨ (pollReturn a s).seq = s.seq := by
  unfold pollReturn
  split
  · unfold busyPoll
    split
    · exact .inl rfl
    · exact .inr rfl
  · exact .inl rfl

/-- A return leaves the transaction pending (no answer, or a poll that goes on), ends the operation, or goes on with the stream. -/
theorem onReturn_seq {k : Answer → State → State} (hk : ∀ a r, (k a r).seq = .ready ∨ (k a r).seq = .lhStream ∨ (k a r).seq = r.seq)
    (s : State) : (onReturn k s).seq = .ready ∨ (onReturn k s).seq = .lhStream ∨ (onReturn k s).seq = s.seq := by
  rcases onReturn_cases k s with hn | ⟨a, rest, -, hn⟩ <;> rw [hn]
  · exact .inr (.inr rfl)
  · have hr : (recordReturn a { s with txIn := rest }).seq = s.seq := by rw [recordReturn_eq]
    simpa only [hr] using hk a (recordReturn a { s with txIn := rest })

/-- A stored byte `b` that flushes is the sixteenth of its page, and the last byte of the request (spec/20_memory.md R67). -/
theorem flushIfFull_pending {s : State} {b : Byte} (hne : s.seq ≠ .lhFlush) (h : (flushIfFull (putByte b s)).seq = .lhFlush) :
    s.cnt = 15 ∧ (flushIfFull (putByte b s)).cnt = 0 ∧
      (request (flushIfFull (putByte b s))).w = pagePrefix s.params.ppOperand ++ (s.pbPayload.set 15 b).toList := by
  unfold flushIfFull at h ⊢
  split at h
  case isFalse => exact absurd h hne
  case isTrue hfull =>
    have hcnt : s.cnt = 15 := by rw [putByte_cnt] at hfull; bv_omega
    have hpage : (putByte b s).pbPayload = s.pbPayload.set 15 b := by
      rw [putByte_pbPayload, hcnt]
      exact payload_setIfInBounds s.pbPayload 15 b (by decide)
    rw [if_pos hfull, flush_eq, ← hpage]
    exact ⟨hcnt, rfl, rfl⟩

theorem secondDigit_pending {s : State} {d : BitVec 4} (hne : s.seq ≠ .lhFlush) (h : (secondDigit d s).seq = .lhFlush) :
    s.cnt = 15 ∧ (secondDigit d s).cnt = 0 ∧
      (request (secondDigit d s)).w = pagePrefix s.params.ppOperand ++ (s.pbPayload.set 15 (s.hiNib ++ d)).toList := by
  rw [secondDigit, noteOverflow_eq, hexByte_eq] at h ⊢
  exact (flushIfFull_pending (by exact hne) h :)

/-- Of the tokens only a second digit makes a page pending. -/
theorem token_pending {s : State} {t : Token} (hne : s.seq ≠ .lhFlush) (h : (token t s).seq = .lhFlush) :
    ∃ c d, t = .char c ∧ hexValue c = some d ∧ s.haveHi = true ∧ token t s = secondDigit d s := by
  cases t with
  | eos => exact absurd h (by simp [token, endOfStream])
  | char c =>
    cases hv : hexValue c with
    | some d =>
      rw [token_digit c d hv, hexDigit] at h ⊢
      split at h
      case isTrue hh => exact ⟨c, d, rfl, hv, hh, if_pos hh⟩
      case isFalse => exact absurd h hne
    | none =>
      rw [token_separator c hv, separator, dropDigit_eq] at h
      exact absurd h hne

/-- LH_FLUSH is entered from LH_STREAM only (spec/40_sequencer.md R141). -/
theorem nextState_pending_from_stream {s : State} (h : (nextState s).seq = .lhFlush) (hne : s.seq ≠ .lhFlush) : s.seq = .lhStream := by
  have hreturn {k : Answer → State → State} (hk : ∀ a r, (k a r).seq = .ready ∨ (k a r).seq = .lhStream ∨ (k a r).seq = r.seq)
      (hn : nextState s = onReturn k s) : s.seq = .lhStream := by
    have hs := onReturn_seq hk s
    simp [← hn, h, hne.symm] at hs
  rcases nextState_cases s with ⟨-, hn⟩ | ⟨c, rest, i, -, -, -, hn⟩ | ⟨c, rest, e, -, -, -, hn⟩ | ⟨i, -, -, -, hn⟩ |
    ⟨-, hn⟩ | ⟨-, hn⟩ | ⟨hq, -⟩ | ⟨hq, -⟩
  · exact absurd (hn ▸ h) hne
  · have ha := accept_seq i { s with cmdIn := rest }
    simp [← hn, h] at ha
  · exact absurd (hn ▸ h) (by simp [refuse])
  · exact hreturn (fun _ _ => .inl rfl) hn
  · exact hreturn (fun a r => (pollReturn_seq a r).imp_right .inr) hn
  · exact hreturn (fun _ _ => .inr (.inl rfl)) hn
  · exact hq
  · exact absurd hq hne

/-- Settles O56: LH_FLUSH is entered from LH_STREAM, by a second digit, with fifteen bytes stored before. -/
theorem pageSentOnlyWhenFull : Obligations.PageSentOnlyWhenFull := by
  intro s t h ht hne
  rw [step_eq, Host.Outcome.next.injEq] at h
  subst h
  cases hr : rstNow s
  case true => simp [hr, rst, State.reset] at ht
  case false =>
    simp only [hr, Bool.false_eq_true, if_false] at ht ⊢
    have hq : s.seq = .lhStream := nextState_pending_from_stream (s := useRstSample s) ht hne
    rw [nextState_lhStream (useRstSample s) hq] at ht ⊢
    cases hpop : s.hsIn.pop freeToken with
    | none =>
      rw [onToken_none (useRstSample s) hpop] at ht
      exact absurd ht hne
    | some presented =>
      obtain ⟨tok, rest⟩ := presented
      rw [onToken_some (useRstSample s) tok rest hpop] at ht ⊢
      obtain ⟨c, d, rfl, hv, hh, heq⟩ := token_pending (s := { useRstSample s with hsIn := rest }) hne ht
      rw [heq] at ht ⊢
      obtain ⟨hcnt, hzero, hpage⟩ := secondDigit_pending (s := { useRstSample s with hsIn := rest }) hne ht
      exact ⟨hq, hcnt, hh, hzero, c, d, rest, rfl, hv, hpage⟩

end Sys2Proof.Machine

/-! PROOFS. The encodings of spec/30_encoding.md: the operand bytes, the decoder of the wire as the inverse of the Command Encoder, the op
select codes and the hex characters. -/

namespace Sys2Proof.Machine

/-! ### The erase operand -/

theorem lowNibble_getLsbD (k : Nat) : (0x0F : Word).getLsbD k = decide (k < 4) := by
  have hbit : (2 ^ 4 - 1).testBit k = decide (k < 4) := Nat.testBit_two_pow_sub_one 4 k
  simpa [BitVec.getLsbD, BitVec.getLsbD_ofNat] using hbit

/-- Bit `k` of `ff` is flag bit `16 + k` in bits 3:0, and 0 above them (R93). -/
theorem eraseOperand_getLsbD (flags : Word) (k : Nat) :
    (eraseOperand flags).getLsbD k = (decide (k < 4) && flags.getLsbD (16 + k)) := by
  rw [eraseOperand, BitVec.getLsbD_setWidth, BitVec.getLsbD_and, BitVec.getLsbD_ushiftRight, lowNibble_getLsbD]
  by_cases hk : k < 4
  · simp [hk, hk.trans (by decide : 4 < 8)]
  · simp [hk]

theorem eraseOperand_highNibble (flags : Word) : eraseOperand flags &&& 0xF0 = 0 := by
  refine BitVec.eq_of_getLsbD_eq fun k hk => ?_
  rw [BitVec.getLsbD_and, eraseOperand_getLsbD]
  interval_cases k <;> simp

theorem eraseFlags_eraseOperand (flags : Word) : eraseFlags (eraseOperand flags) = flags &&& 0x000F0000 := by
  refine BitVec.eq_of_getLsbD_eq fun k hk => ?_
  rw [eraseFlags, BitVec.getLsbD_shiftLeft, BitVec.getLsbD_setWidth, eraseOperand_getLsbD, BitVec.getLsbD_and,
    show (0x000F0000 : Word) = (0x0F : Word) <<< 16 from rfl, BitVec.getLsbD_shiftLeft, lowNibble_getLsbD]
  by_cases h16 : k < 16
  · simp [h16]
  · have hsub : 16 + (k - 16) = k := by omega
    have hlt : k - 16 < 32 := by omega
    simp [hk, h16, hsub, hlt, Bool.and_comm]

/-- An `ff` with bits 7:4 zero is the operand of the flags that it decodes to. -/
theorem eraseOperand_eraseFlags (ff : Byte) (h : ff &&& 0xF0 = 0) : eraseOperand (eraseFlags ff) = ff := by
  refine BitVec.eq_of_getLsbD_eq fun k hk => ?_
  have hbit : (ff &&& 0xF0).getLsbD k = false := by rw [h]; exact BitVec.getLsbD_zero
  rw [eraseOperand_getLsbD, eraseFlags, BitVec.getLsbD_shiftLeft, BitVec.getLsbD_setWidth, Nat.add_sub_cancel_left]
  rw [BitVec.getLsbD_and] at hbit
  by_cases hlow : k < 4
  · have hlt : 16 + k < 32 ∧ k < 32 := by omega
    simp [hlow, hlt]
  · have hle : 4 ≤ k := Nat.not_lt.mp hlow
    have hmask : (0xF0 : Byte).getLsbD k = true := by interval_cases k <;> rfl
    have hzero : ff.getLsbD k = false := by rwa [hmask, Bool.and_true] at hbit
    simp [hzero]

/-! ### The page bytes -/

theorem pageHigh_toNat (page : Word) : (pageHigh page).toNat = page.toNat / 256 % 256 := by
  rw [pageHigh, BitVec.extractLsb'_toNat, Nat.shiftRight_eq_div_pow]

theorem pageLow_toNat (page : Word) : (pageLow page).toNat = page.toNat % 256 := by
  rw [pageLow, BitVec.extractLsb'_toNat, Nat.shiftRight_zero]

/-- `hh ll` is the low half of the page number, big-endian (R94). -/
theorem pageBytes_toNat (page : Word) : (pageHigh page).toNat * 256 + (pageLow page).toNat = page.toNat % 0x10000 := by
  rw [pageHigh_toNat, pageLow_toNat]
  omega

theorem pageArg_toNat (hh ll : Byte) : (pageArg hh ll).toNat = hh.toNat * 256 + ll.toNat := by
  have hlt : hh.toNat * 256 + ll.toNat < 2 ^ 32 := by omega
  rw [pageArg, BitVec.toNat_setWidth, BitVec.toNat_append, ← Nat.shiftLeft_add_eq_or_of_lt ll.isLt, Nat.shiftLeft_eq]
  exact Nat.mod_eq_of_lt hlt

theorem pageArg_pageBytes (page : Word) : pageArg (pageHigh page) (pageLow page) = page &&& 0x0000FFFF := by
  refine BitVec.eq_of_toNat_eq ?_
  rw [pageArg_toNat, pageBytes_toNat, BitVec.toNat_and]
  exact (Nat.and_two_pow_sub_one_eq_mod page.toNat 16).symm

theorem pageHigh_pageArg (hh ll : Byte) : pageHigh (pageArg hh ll) = hh := by
  refine BitVec.eq_of_toNat_eq ?_
  rw [pageHigh_toNat, pageArg_toNat]
  omega

theorem pageLow_pageArg (hh ll : Byte) : pageLow (pageArg hh ll) = ll := by
  refine BitVec.eq_of_toNat_eq ?_
  rw [pageLow_toNat, pageArg_toNat]
  omega

/-! ### The frames -/

theorem programPage_wellFormed (pp : BitVec 24) (arg : Word) (buf : Buf) :
    (Instr.programPage arg buf).wellFormed pp = true ↔ buf.toList.take 4 = pagePrefix pp := by
  simp [Instr.wellFormed, Instr.pageFits, Instr.bufPrefixOk]

theorem setCfgAddr_wellFormed (pp : BitVec 24) (page : Word) : (Instr.setCfgAddr page).wellFormed pp = true ↔ page.toNat < 0x10000 := by
  simp [Instr.wellFormed, Instr.pageFits, Instr.bufPrefixOk]

theorem setUfmAddr_wellFormed (pp : BitVec 24) (page : Word) : (Instr.setUfmAddr page).wellFormed pp = true ↔ page.toNat < 0x10000 := by
  simp [Instr.wellFormed, Instr.pageFits, Instr.bufPrefixOk]

/-- The page frame of a buffer with the prefix of PP_OPERAND begins with its opcode byte. -/
theorem buf_head_of_prefix (pp : BitVec 24) (buf : Buf) (h : buf.toList.take 4 = pagePrefix pp) : ∃ tl, buf.toList = 0x70 :: tl :=
  ⟨ppBytes pp ++ buf.toList.drop 4, by rw [← List.take_append_drop 4 buf.toList, h]; rfl⟩

/-- The length of every row of R91. -/
theorem frameBytes_length (i : Instr) (hw : i.isWire = true) :
    (frameBytes i).length = if opsel i ∈ [10, 11, 19] then 3 else if opsel i ∈ [15, 16] then 8 else if opsel i = 17 then 20 else 4 := by
  cases i
  case programPage arg buf => exact buf.length_toList
  case waitBusy | loadHex => simp [Instr.isWire] at hw
  all_goals rfl

/-- The first byte of a well-formed command's frame tells the frame's length (R110). -/
theorem frameBytes_head (pp : BitVec 24) (i : Instr) (hw : i.isWire = true) (hf : i.wellFormed pp = true) :
    ∃ b tl, frameBytes i = b :: tl ∧ frameLen b = some (frameBytes i).length := by
  cases i
  case programPage arg buf =>
    obtain ⟨tl, htl⟩ := buf_head_of_prefix pp buf ((programPage_wellFormed pp _ buf).mp hf)
    exact ⟨0x70, tl, htl, congrArg some buf.length_toList.symm⟩
  case waitBusy | loadHex => simp [Instr.isWire] at hw
  all_goals exact ⟨_, _, rfl, rfl⟩

/-! ### Decoding one frame -/

theorem lookup_fixedFrames (i : Instr) (h : (frameBytes i, i) ∈ fixedFrames) : fixedFrames.lookup (frameBytes i) = some i := by
  have hall : ∀ p ∈ fixedFrames, fixedFrames.lookup p.1 = some p.2 := by decide
  exact hall _ h

/-- The opcode bytes of the rows with operands begin none of the frames without (R110). -/
theorem lookup_operandFrame (b : Byte) (tl : List Byte) (hb : b ∈ [0x0E, 0xB4, 0x70]) : fixedFrames.lookup (b :: tl) = none := by
  have hheads : ∀ p ∈ fixedFrames, ∀ b ∈ ([0x0E, 0xB4, 0x70] : List Byte), p.1.head? ≠ some b := by decide
  rw [List.lookup_eq_none_iff]
  intro p hp
  rw [bne_iff_ne]
  exact fun heq => hheads p hp b hb (congrArg List.head? heq.symm)

/-! The decoder on the frame of each row. -/

theorem decodeExact_fixed (pp : BitVec 24) (f : List Byte) (i : Instr) (h : fixedFrames.lookup f = some i) : decodeExact pp f = some i := by
  simp only [decodeExact, h]

theorem decodeExact_erase (pp : BitVec 24) (ff : Byte) (h : ff &&& 0xF0 = 0) :
    decodeExact pp [0x0E, ff, 0, 0] = some (.erase (eraseFlags ff)) := by
  simp only [decodeExact, lookup_operandFrame 0x0E _ (by decide), h, and_self, if_true]

theorem decodeExact_setCfgAddr (pp : BitVec 24) (hh ll : Byte) :
    decodeExact pp [0xB4, 0, 0, 0, tgtCfg, 0, hh, ll] = some (.setCfgAddr (pageArg hh ll)) := by
  simp only [decodeExact, lookup_operandFrame 0xB4 _ (by decide), and_self, if_true]

theorem decodeExact_setUfmAddr (pp : BitVec 24) (hh ll : Byte) :
    decodeExact pp [0xB4, 0, 0, 0, tgtUfm, 0, hh, ll] = some (.setUfmAddr (pageArg hh ll)) := by
  have hne : tgtUfm ≠ tgtCfg := by decide
  simp only [decodeExact, lookup_operandFrame 0xB4 _ (by decide), and_self, if_true, hne, if_false]

theorem decodeExact_programPage (pp : BitVec 24) (buf : Buf) (h : buf.toList.take 4 = pagePrefix pp) :
    decodeExact pp buf.toList = some (.programPage 0 buf) := by
  obtain ⟨tl, htl⟩ := buf_head_of_prefix pp buf h
  have hlookup : fixedFrames.lookup buf.toList = none := by rw [htl]; exact lookup_operandFrame 0x70 tl (by decide)
  have hlen : buf.toList.length = 20 := buf.length_toList
  unfold decodeExact
  rw [hlookup]
  dsimp only
  split
  case h_1 heq => simp [heq] at hlen
  case h_2 heq => simp [heq] at hlen
  case h_3 => rw [dif_pos hlen, if_pos h]; rfl

/-- A wire command whose frame carries all of its `arg` is a row without operands or one of the four rows with operands (R91). -/
theorem carried_wire_cases (i : Instr) (hw : i.isWire = true) (hc : i.argCarried = true) :
    (frameBytes i, i) ∈ fixedFrames ∨ (∃ flags, i = .erase flags) ∨ (∃ page, i = .setCfgAddr page) ∨
      (∃ page, i = .setUfmAddr page) ∨ ∃ buf, i = .programPage 0 buf := by
  have harg : argOf i = i.carriedArg := beq_iff_eq.mp hc
  cases i
  case waitBusy | loadHex => simp [Instr.isWire] at hw
  case erase flags => exact .inr (.inl ⟨flags, rfl⟩)
  case setCfgAddr page => exact .inr (.inr (.inl ⟨page, rfl⟩))
  case setUfmAddr page => exact .inr (.inr (.inr (.inl ⟨page, rfl⟩)))
  case programPage arg buf => exact .inr (.inr (.inr (.inr ⟨buf, by rw [show arg = 0 from harg]⟩)))
  all_goals
    rename_i arg
    obtain rfl : arg = 0 := harg
    exact .inl (by decide)

/-- The frame of a well-formed command that it carries in full decodes to that command: one case for each kind of row. -/
theorem decodeExact_frameBytes (pp : BitVec 24) (i : Instr) (hw : i.isWire = true) (hf : i.wellFormed pp = true) (hc : i.argCarried = true) :
    decodeExact pp (frameBytes i) = some i := by
  have harg : argOf i = i.carriedArg := beq_iff_eq.mp hc
  rcases carried_wire_cases i hw hc with hfixed | ⟨flags, rfl⟩ | ⟨page, rfl⟩ | ⟨page, rfl⟩ | ⟨buf, rfl⟩
  · exact decodeExact_fixed pp _ i (lookup_fixedFrames i hfixed)
  · have hflags : eraseFlags (eraseOperand flags) = flags := (eraseFlags_eraseOperand flags).trans harg.symm
    exact (decodeExact_erase pp _ (eraseOperand_highNibble flags)).trans (by rw [hflags])
  · have hpage : pageArg (pageHigh page) (pageLow page) = page := (pageArg_pageBytes page).trans harg.symm
    exact (decodeExact_setCfgAddr pp _ _).trans (by rw [hpage])
  · have hpage : pageArg (pageHigh page) (pageLow page) = page := (pageArg_pageBytes page).trans harg.symm
    exact (decodeExact_setUfmAddr pp _ _).trans (by rw [hpage])
  · exact decodeExact_programPage pp buf ((programPage_wellFormed pp _ buf).mp hf)

/-! What decodes is a frame. -/

/-- `f` is the frame of `i`, and `i` is a wire command with well-formed operands that its frame says in full. -/
structure IsFrameOf (pp : BitVec 24) (f : List Byte) (i : Instr) : Prop where
  frame : f = frameBytes i
  wire : i.isWire = true
  formed : i.wellFormed pp = true
  carried : i.argCarried = true

theorem IsFrameOf.of_fixed (pp : BitVec 24) (f : List Byte) (i : Instr) (h : fixedFrames.lookup f = some i) : IsFrameOf pp f i := by
  have hmem : (f, i) ∈ fixedFrames := by
    obtain ⟨l₁, l₂, heq, -⟩ := List.lookup_eq_some_iff.mp h
    simp [heq]
  have hall : ∀ p ∈ fixedFrames, p.1 = frameBytes p.2 ∧ p.2.isWire = true ∧ p.2.argCarried = true := by decide
  have hform : ∀ p ∈ fixedFrames, p.2.wellFormed pp = true := by simp [fixedFrames, Instr.wellFormed, Instr.pageFits, Instr.bufPrefixOk]
  obtain ⟨hframe, hwire, hcarried⟩ := hall _ hmem
  exact ⟨hframe, hwire, hform _ hmem, hcarried⟩

theorem IsFrameOf.erase (pp : BitVec 24) (ff : Byte) (h : ff &&& 0xF0 = 0) :
    IsFrameOf pp [0x0E, ff, 0, 0] (.erase (eraseFlags ff)) := by
  have hff := eraseOperand_eraseFlags ff h
  have hcarried : eraseFlags ff = eraseFlags ff &&& 0x000F0000 := by
    rw [← eraseFlags_eraseOperand, hff]
  exact ⟨by rw [frameBytes, hff], rfl, rfl, beq_iff_eq.mpr hcarried⟩

/-- Two bytes are always a page number that fits and that its frame carries (R94). -/
theorem pageArg_fits_and_carried (hh ll : Byte) : (pageArg hh ll).toNat < 0x10000 ∧ pageArg hh ll = pageArg hh ll &&& 0x0000FFFF := by
  refine ⟨?_, by rw [← pageArg_pageBytes, pageHigh_pageArg, pageLow_pageArg]⟩
  rw [pageArg_toNat]
  omega

theorem IsFrameOf.setCfgAddr (pp : BitVec 24) (hh ll : Byte) :
    IsFrameOf pp [0xB4, 0, 0, 0, tgtCfg, 0, hh, ll] (.setCfgAddr (pageArg hh ll)) := by
  obtain ⟨hfits, hcarried⟩ := pageArg_fits_and_carried hh ll
  exact ⟨by rw [frameBytes, pageHigh_pageArg, pageLow_pageArg], rfl,
    (setCfgAddr_wellFormed pp _).mpr hfits, beq_iff_eq.mpr hcarried⟩

theorem IsFrameOf.setUfmAddr (pp : BitVec 24) (hh ll : Byte) :
    IsFrameOf pp [0xB4, 0, 0, 0, tgtUfm, 0, hh, ll] (.setUfmAddr (pageArg hh ll)) := by
  obtain ⟨hfits, hcarried⟩ := pageArg_fits_and_carried hh ll
  exact ⟨by rw [frameBytes, pageHigh_pageArg, pageLow_pageArg], rfl,
    (setUfmAddr_wellFormed pp _).mpr hfits, beq_iff_eq.mpr hcarried⟩

theorem IsFrameOf.programPage (pp : BitVec 24) (buf : Buf) (h : buf.toList.take 4 = pagePrefix pp) :
    IsFrameOf pp buf.toList (.programPage 0 buf) :=
  ⟨rfl, rfl, (programPage_wellFormed pp 0 buf).mpr h, rfl⟩

/-- What decodes is the frame of the operation it decodes to: one case for each branch of the decoder. -/
theorem isFrameOf_of_decodeExact {pp : BitVec 24} {f : List Byte} {i : Instr} (h : decodeExact pp f = some i) : IsFrameOf pp f i := by
  unfold decodeExact at h
  split at h
  case h_1 j hlookup =>
    obtain rfl : j = i := Option.some.inj h
    exact .of_fixed pp f j hlookup
  case h_2 hlookup =>
    split at h
    case h_1 b0 ff b2 b3 =>
      obtain ⟨⟨rfl, hff, rfl, rfl⟩, rfl⟩ := by simpa using h
      exact .erase pp ff hff
    case h_2 b0 b1 b2 b3 tgt b5 hh ll =>
      split at h
      case isFalse => simp at h
      case isTrue hbytes =>
        obtain ⟨rfl, rfl, rfl, rfl, rfl⟩ := hbytes
        split at h
        case isTrue htgt =>
          obtain rfl := Option.some.inj h
          rw [htgt]
          exact .setCfgAddr pp hh ll
        case isFalse =>
          split at h
          case isFalse => simp at h
          case isTrue htgt =>
            obtain rfl := Option.some.inj h
            rw [htgt]
            exact .setUfmAddr pp hh ll
    case h_3 =>
      split at h
      case isFalse => simp at h
      case isTrue hlen =>
        split at h
        case isFalse => simp at h
        case isTrue hprefix =>
          obtain rfl := Option.some.inj h
          exact .programPage pp ⟨f.toArray, by simpa using hlen⟩ hprefix

/-! The decoder cuts one frame off the front. -/

/-- One frame is cut off the front, whatever follows it. -/
theorem decodeFrame_append {pp : BitVec 24} {b : Byte} {tl rest : List Byte} {i : Instr}
    (hlen : frameLen b = some (b :: tl).length) (hexact : decodeExact pp (b :: tl) = some i) :
    decodeFrame pp (b :: tl ++ rest) = .ok (i, rest) := by
  have hlong : ¬ (b :: tl ++ rest).length < (b :: tl).length := by simp
  simp only [decodeFrame, List.cons_append, hlen]
  rw [← List.cons_append, if_neg hlong, List.take_left, List.drop_left, hexact]

/-- What decodes is a frame at the front and the rest behind it. -/
theorem decodeFrame_cut {pp : BitVec 24} {bs rest : List Byte} {i : Instr} (h : decodeFrame pp bs = .ok (i, rest)) :
    ∃ f, bs = f ++ rest ∧ decodeExact pp f = some i := by
  unfold decodeFrame at h
  split at h
  case h_1 => simp at h
  case h_2 op tl =>
    split at h
    case h_1 => simp at h
    case h_2 n hn =>
      split at h
      case isTrue => simp at h
      case isFalse =>
        split at h
        case h_2 => simp at h
        case h_1 j hj =>
          obtain ⟨rfl, rfl⟩ := by simpa using h
          exact ⟨_, (List.take_append_drop n (op :: tl)).symm, hj⟩

/-! ### The statements about frames -/

/-- Settles O3: the first byte gives the length, and the frame of that length decodes to its command. -/
theorem frameRoundTrip : Obligations.FrameRoundTrip := by
  intro pp i rest hw hf hc
  obtain ⟨b, tl, hframe, hlen⟩ := frameBytes_head pp i hw hf
  have hexact := decodeExact_frameBytes pp i hw hf hc
  rw [hframe] at hlen hexact
  rw [encodeFrame, hframe]
  exact decodeFrame_append hlen hexact

/-- Settles O4: the bytes cut off the front are the frame of what they decode to. -/
theorem decodedFrameIsItsEncoding : Obligations.DecodedFrameIsItsEncoding := by
  intro pp bs i rest h
  obtain ⟨f, rfl, hexact⟩ := decodeFrame_cut h
  obtain ⟨rfl, hw, hf, hc⟩ := isFrameOf_of_decodeExact hexact
  exact ⟨rfl, hw, hf, hc⟩

/-- Settles O5, from the row lengths and the first bytes. -/
theorem frameLengthFromFirstByte : Obligations.FrameLengthFromFirstByte :=
  fun i hw => ⟨frameBytes_length i hw, fun pp hf => frameBytes_head pp i hw hf⟩

/-- Settles O6, from the reading of one bit of the operand byte. -/
theorem eraseFrameTakesFlagBits : Obligations.EraseFrameTakesFlagBits := by
  refine ⟨fun flags => ⟨eraseOperand flags, rfl, eraseOperand_getLsbD flags⟩, fun flags flags' hagree => ?_⟩
  have hoperand : eraseOperand flags = eraseOperand flags' := by
    refine BitVec.eq_of_getLsbD_eq fun k _ => ?_
    rw [eraseOperand_getLsbD, eraseOperand_getLsbD]
    by_cases hk : k < 4
    · rw [hagree k hk]
    · simp [hk]
  simp only [encodeFrame, frameBytes, hoperand]

/-- Settles O7: the two page bytes are the low half of the page number. -/
theorem setAddressFrames : Obligations.SetAddressFrames :=
  fun page => ⟨pageHigh page, pageLow page, rfl, rfl, pageBytes_toNat page⟩

/-- Settles O1, by decoding the ten words. -/
theorem specWordsDecode : Obligations.SpecWordsDecode := by
  unfold Obligations.SpecWordsDecode
  decide

/-! ### Commands on CMD -/

theorem decode_encode (i : Instr) : decode (encode i) = .ok i := by
  cases i <;> rfl

/-- Settles O2: a command that decodes is selected by its own code and operand. -/
theorem commandRoundTrip : Obligations.CommandRoundTrip := by
  refine ⟨decode_encode, fun c i h => ?_⟩
  obtain ⟨hop, harg⟩ := decode_selects c i h
  exact ⟨hop.symm, harg.symm⟩

/-! ### Hex characters -/

/-- The digit at `c - base` places into its range, which begins with the value `first`. -/
theorem digit_toNat (c base first : Byte) (hle : base.toNat ≤ c.toNat) (hlt : c.toNat - base.toNat + first.toNat < 16) :
    ((c - base + first).setWidth 4).toNat = c.toNat - base.toNat + first.toNat := by
  rw [BitVec.toNat_setWidth, BitVec.toNat_add, BitVec.toNat_sub_of_le hle]
  omega

theorem hexValue_decimal (c : Byte) (h : 0x30 ≤ c.toNat ∧ c.toNat ≤ 0x39) : hexValue c = some ((c - 0x30 + 0).setWidth 4) := by
  have hdecimal : 0x30 ≤ c ∧ c ≤ 0x39 := h
  rw [hexValue, if_pos hdecimal, show c - 0x30 + 0 = c - 0x30 from BitVec.add_zero _]

theorem hexValue_upper (c : Byte) (h : 0x41 ≤ c.toNat ∧ c.toNat ≤ 0x46) : hexValue c = some ((c - 0x41 + 10).setWidth 4) := by
  have hupper : 0x41 ≤ c ∧ c ≤ 0x46 := h
  have hdecimal : ¬ (0x30 ≤ c ∧ c ≤ 0x39) := by bv_omega
  rw [hexValue, if_neg hdecimal, if_pos hupper]

theorem hexValue_lower (c : Byte) (h : 0x61 ≤ c.toNat ∧ c.toNat ≤ 0x66) : hexValue c = some ((c - 0x61 + 10).setWidth 4) := by
  have hlower : 0x61 ≤ c ∧ c ≤ 0x66 := h
  have hdecimal : ¬ (0x30 ≤ c ∧ c ≤ 0x39) := by bv_omega
  have hupper : ¬ (0x41 ≤ c ∧ c ≤ 0x46) := by bv_omega
  rw [hexValue, if_neg hdecimal, if_neg hupper, if_pos hlower]

theorem hexValue_separator (c : Byte) (hdecimal : ¬ (0x30 ≤ c.toNat ∧ c.toNat ≤ 0x39)) (hupper : ¬ (0x41 ≤ c.toNat ∧ c.toNat ≤ 0x46))
    (hlower : ¬ (0x61 ≤ c.toNat ∧ c.toNat ≤ 0x66)) : hexValue c = none :=
  (if_neg hdecimal).trans ((if_neg hupper).trans (if_neg hlower))

/-- Settles O8, one case for each range of R106. -/
theorem hexCharacterValues : Obligations.HexCharacterValues := by
  intro c
  refine ⟨fun h => ⟨_, hexValue_decimal c h, ?_⟩, fun h => ⟨_, hexValue_upper c h, ?_⟩, fun h => ⟨_, hexValue_lower c h, ?_⟩,
    fun ⟨hdecimal, hupper, hlower⟩ => hexValue_separator c hdecimal hupper hlower⟩
  all_goals obtain ⟨hle, hge⟩ := h
  · exact digit_toNat c 0x30 0 hle (by bv_omega)
  · exact digit_toNat c 0x41 10 hle (by bv_omega)
  · exact digit_toNat c 0x61 10 hle (by bv_omega)

end Sys2Proof.Machine

/-! PROOFS. The sequencer of spec/40_sequencer.md: the cause of an operation's end, what a failed transaction leaves, and the order check of
the accept step. -/

namespace Sys2Proof.Machine

/-! ### What ends an operation -/

theorem satInc_toNat_le {w : Nat} (x : BitVec w) : (satInc x).toNat ≤ x.toNat + 1 := by
  by_cases h : x = BitVec.allOnes w
  · rw [satInc, if_pos h]; exact Nat.le_succ _
  · rw [satInc, if_neg h, BitVec.toNat_add]
    exact (Nat.mod_le _ _).trans (Nat.add_le_add_left (Nat.mod_le _ _) _)

/-- The limit test of R212 is made on the count that includes the poll just read. -/
theorem limitReached_countPoll {s : State} (h : limitReached (countPoll s) = true) :
    s.params.pollLimit ≠ 0 ∧ s.params.pollLimit.toNat ≤ s.pollCnt.toNat + 1 := by
  simp only [limitReached, countPoll_params, countPoll_pollCnt, Bool.and_eq_true, bne_iff_ne] at h
  obtain ⟨hne, hle⟩ := h
  exact ⟨hne, (BitVec.le_def.mp (of_decide_eq_true hle)).trans (satInc_toNat_le _)⟩

/-- WAIT_BUSY ends on a ready poll or at POLL_LIMIT (spec/43_busy_wait.md R214). -/
theorem pollReturn_ends {a : Answer} {s : State} (hne : s.seq ≠ .ready) (h : (pollReturn a s).seq = .ready) :
    busyBit a.bytes[0] = false ∨ s.params.pollLimit ≠ 0 ∧ s.params.pollLimit.toNat ≤ s.pollCnt.toNat + 1 := by
  cases hb : busyBit a.bytes[0]
  case false => exact .inl rfl
  case true =>
    rw [pollReturn, if_pos hb, busyPoll] at h
    split at h
    case isTrue hlim => exact .inr (limitReached_countPoll hlim)
    case isFalse => exact absurd h hne

theorem flushIfFull_seq (s : State) : (flushIfFull s).seq = s.seq ∨ (flushIfFull s).seq = .lhFlush := by
  unfold flushIfFull
  split
  · exact .inr rfl
  · exact .inl rfl

theorem noteOverflow_seq (s : State) : (noteOverflow s).seq = s.seq := by rw [noteOverflow_eq]

theorem hexDigit_seq (d : BitVec 4) (s : State) : (hexDigit d s).seq = s.seq ∨ (hexDigit d s).seq = .lhFlush := by
  unfold hexDigit
  split
  · have hstored : (putByte (hexByte s.hiNib d) (noteOverflow { s with haveHi := false })).seq = s.seq := by
      rw [putByte_seq, noteOverflow_seq]
    exact hstored ▸ flushIfFull_seq (putByte (hexByte s.hiNib d) (noteOverflow { s with haveHi := false }))
  · exact .inl rfl

/-- LOAD_HEX ends on EOS only (spec/44_hex_loader.md R237). -/
theorem token_ends {t : Token} {s : State} (hne : s.seq ≠ .ready) (h : (token t s).seq = .ready) : t = .eos := by
  cases t with
  | eos => rfl
  | char c =>
    cases hv : hexValue c with
    | some d =>
      rw [token_digit c d hv] at h
      rcases hexDigit_seq d s with hs | hs <;> rw [hs] at h
      · exact absurd h hne
      · simp at h
    | none =>
      rw [token_separator c hv, separator, dropDigit_eq] at h
      exact absurd h hne

theorem endOfStream_hsIn (s : State) : (endOfStream s).hsIn = s.hsIn := by
  rw [endOfStream, respond_hsIn, dropDigit_eq]

theorem onToken_ends {s : State} (hne : s.seq ≠ .ready) (h : (onToken s).seq = .ready) :
    s.hsIn.pop freeToken = some (.eos, (onToken s).hsIn) := by
  cases hpop : s.hsIn.pop freeToken with
  | none => rw [onToken_none s hpop] at h; exact absurd h hne
  | some presented =>
    obtain ⟨t, rest⟩ := presented
    rw [onToken_some s t rest hpop] at h ⊢
    obtain rfl := token_ends (s := { s with hsIn := rest }) hne h
    rw [token, endOfStream_hsIn]

/-! What a return reads of the common part, and that its own part takes no further answer. -/

theorem recordReturn_seq (a : Answer) (s : State) : (recordReturn a s).seq = s.seq := by rw [recordReturn_eq]

theorem recordReturn_txIn (a : Answer) (s : State) : (recordReturn a s).txIn = s.txIn := by rw [recordReturn_eq]

theorem recordReturn_pollCnt (a : Answer) (s : State) : (recordReturn a s).pollCnt = s.pollCnt := by rw [recordReturn_eq]

theorem recordReturn_xfail (a : Answer) (s : State) : (recordReturn a s).xfail = (s.xfail || a.status != 0) := by
  rw [recordReturn_eq]

theorem recordReturn_stAcc (a : Answer) (s : State) :
    (recordReturn a s).stAcc = if s.stAcc = 0 then a.status else s.stAcc := by
  rw [recordReturn_eq]

theorem recordReturn_shadow (a : Answer) (s : State) : shadowOf (recordReturn a s) = shadowOf s := by
  rw [recordReturn_eq]; rfl

theorem effectsIfOk_txIn (i : Instr) (a : Answer) (s : State) : (effectsIfOk i a s).txIn = s.txIn := by
  rw [effectsIfOk_eq]

theorem pollReturn_txIn (a : Answer) (s : State) : (pollReturn a s).txIn = s.txIn := by
  unfold pollReturn
  split
  · unfold busyPoll; split <;> rfl
  · rw [readyPoll_eq]; rfl

/-- A return that ends its operation was answered, and took that answer only. -/
theorem onReturn_ends {k : Answer → State → State} {s : State} (hk : ∀ a r, (k a r).txIn = r.txIn) (hne : s.seq ≠ .ready)
    (h : (onReturn k s).seq = .ready) :
    ∃ a, s.txIn.pop freeAnswer = some (a, (onReturn k s).txIn) ∧
      (k a (recordReturn a { s with txIn := (onReturn k s).txIn })).seq = .ready := by
  rcases onReturn_cases k s with hn | ⟨a, rest, hpop, hn⟩
  · rw [hn] at h; exact absurd h hne
  · have hrest : (onReturn k s).txIn = rest := by rw [hn, hk, recordReturn_txIn]
    rw [hrest]
    exact ⟨a, hpop, hn ▸ h⟩

theorem onReturn_poll_ends {s : State} (hq : s.seq = .poll) (h : (onReturn pollReturn s).seq = .ready) :
    ∃ a, s.txIn.pop freeAnswer = some (a, (onReturn pollReturn s).txIn) ∧
      (busyBit a.bytes[0] = false ∨ s.params.pollLimit ≠ 0 ∧ s.params.pollLimit.toNat ≤ s.pollCnt.toNat + 1) := by
  obtain ⟨a, hpop, hend⟩ := onReturn_ends pollReturn_txIn (by simp [hq]) h
  have hcause := pollReturn_ends (by rw [recordReturn_seq]; simp [hq]) hend
  rw [(recordReturn_params_life a _).1, recordReturn_pollCnt] at hcause
  exact ⟨a, hpop, hcause⟩

/-- After the returns in LH_RESET and LH_FLUSH the stream goes on. -/
theorem onReturn_toStream_not_ready {k : Answer → State → State} {s : State} (hk : ∀ a r, (k a r).seq = .lhStream) (hne : s.seq ≠ .ready) :
    (onReturn k s).seq ≠ .ready := by
  rcases onReturn_cases k s with hn | ⟨a, rest, -, hn⟩ <;> rw [hn]
  · exact hne
  · simp [hk]

/-- Settles O37: one case for each step outside READY; the returns of LH_RESET and LH_FLUSH end nothing. -/
theorem operationsEndOnlyForTheirCause : Obligations.OperationsEndOnlyForTheirCause := by
  intro s t hr h hne ht
  rw [step_next_of_no_rst hr h] at ht ⊢
  have hbusy : (useRstSample s).seq ≠ .ready := hne
  rcases nextState_cases (useRstSample s) with ⟨-, hn⟩ | ⟨c, rest, i, hq, -⟩ | ⟨c, rest, e, hq, -⟩ | ⟨i, hq, -, -, hn⟩ |
    ⟨hq, hn⟩ | ⟨-, hn⟩ | ⟨hq, hn⟩ | ⟨-, hn⟩
  · exact absurd (hn ▸ ht) hbusy
  · exact absurd hq hbusy
  · exact absurd hq hbusy
  · rw [hn] at ht ⊢
    obtain ⟨a, hpop, -⟩ := onReturn_ends (k := xactReturn i) (effectsIfOk_txIn i) hbusy ht
    exact .inl ⟨hq, a, hpop⟩
  · rw [hn] at ht ⊢
    exact .inr (.inl ⟨hq, onReturn_poll_ends hq ht⟩)
  · exact absurd (hn ▸ ht) (onReturn_toStream_not_ready (fun _ _ => rfl) hbusy)
  · rw [hn] at ht ⊢
    exact .inr (.inr ⟨hq, onToken_ends hbusy ht⟩)
  · exact absurd (hn ▸ ht) (onReturn_toStream_not_ready (fun _ _ => rfl) hbusy)

/-! ### A failed transaction -/

/-- `t` has the failure latches, the shadow state and the coming answers of `s`. -/
def SameOutcome (s t : State) : Prop :=
  t.xfail = s.xfail ∧ t.stAcc = s.stAcc ∧ shadowOf t = shadowOf s ∧ t.txIn = s.txIn

theorem effectsIfOk_failed {a : Answer} (i : Instr) (s : State) (ha : a.status ≠ 0) : effectsIfOk i a s = s := by
  rw [effectsIfOk, if_neg ha]

theorem xactReturn_failed {a : Answer} (i : Instr) (s : State) (ha : a.status ≠ 0) : SameOutcome s (xactReturn i a s) := by
  rw [xactReturn, effectsIfOk_failed i s ha]
  exact ⟨rfl, rfl, rfl, rfl⟩

theorem resetReturn_failed {a : Answer} (s : State) (ha : a.status ≠ 0) : SameOutcome s (resetReturn a s) := by
  rw [resetReturn, effectsIfOk_failed _ s ha]
  exact ⟨rfl, rfl, rfl, rfl⟩

theorem flushReturn_failed {a : Answer} (s : State) (ha : a.status ≠ 0) : SameOutcome s (flushReturn a s) := by
  rw [flushReturn, effectsIfOk_failed _ s ha]
  exact ⟨rfl, rfl, rfl, rfl⟩

/-- A failed poll counts or ends the wait by its byte, but a ready one does not clear `erase_pend` (spec/43_busy_wait.md R212). -/
theorem pollReturn_failed {a : Answer} (s : State) (ha : a.status ≠ 0) : SameOutcome s (pollReturn a s) := by
  unfold pollReturn
  split
  · unfold busyPoll; split <;> exact ⟨rfl, rfl, rfl, rfl⟩
  · rw [readyPoll, if_neg ha]; exact ⟨rfl, rfl, rfl, rfl⟩

/-- In a transaction state the step is one return, whose own part moves nothing when the transaction failed. -/
theorem nextState_failed {s : State} {a : Answer} (hp : txPending s.seq = true) (hop : s.seq = .xact → s.curOp.toNat ≤ 20)
    (ha : a.status ≠ 0) : ∃ k : Answer → State → State, nextState s = onReturn k s ∧ ∀ r, SameOutcome r (k a r) := by
  cases hq : s.seq
  case xact =>
    obtain ⟨i, hf, hw⟩ := decode_wire { op := s.curOp, arg := s.curArg, buf := s.fb } (hop hq)
    exact ⟨xactReturn i, nextState_xact s i hq hf hw, fun r => xactReturn_failed i r ha⟩
  case poll => exact ⟨pollReturn, nextState_poll s hq, fun r => pollReturn_failed r ha⟩
  case lhReset => exact ⟨resetReturn, nextState_lhReset s hq, fun r => resetReturn_failed r ha⟩
  case lhFlush => exact ⟨flushReturn, nextState_lhFlush s hq, fun r => flushReturn_failed r ha⟩
  all_goals simp [hq, txPending] at hp

/-- Settles O49: the common part of the return latches the failure, and its own part skips the effects. -/
theorem failureMovesNoShadow : Obligations.FailureMovesNoShadow := by
  intro s a rest hr hp hpop ha hop
  refine ⟨nextState (useRstSample s), by rw [step_eq, hr]; rfl, ?_⟩
  obtain ⟨k, hn, hk⟩ := nextState_failed (s := useRstSample s) hp hop ha
  rw [hn, onReturn_some k (useRstSample s) a rest hpop]
  obtain ⟨hxfail, hacc, hshadow, htx⟩ := hk (recordReturn a { useRstSample s with txIn := rest })
  rw [recordReturn_xfail, bne_iff_ne.mpr ha, Bool.or_true] at hxfail
  rw [recordReturn_stAcc] at hacc
  rw [recordReturn_shadow] at hshadow
  rw [recordReturn_txIn] at htx
  obtain ⟨hlife, hcfg, hufm, herase⟩ := Shadow.mk.inj hshadow
  exact ⟨hxfail, hacc, hlife, hcfg, hufm, herase, htx⟩

/-! ### The accept step: legality and order -/

theorem startOf_shadow (i : Instr) (s : State) : shadowOf (startOf i s) = shadowOf s := by
  rcases wire_or_composite i with hw | ⟨arg, rfl⟩ | ⟨arg, rfl⟩
  · rw [startOf_wire i hw]; rfl
  · rfl
  · rw [startOf, startLoad_eq]; rfl

/-- An accept moves no shadow state, refused or not (spec/40_sequencer.md R130). -/
theorem accept_shadow (i : Instr) (s : State) : shadowOf (accept i (startOf i) s) = shadowOf s := by
  unfold accept
  split
  · rfl
  · rw [acceptOrdered_eq]
    split
    · rfl
    · exact startOf_shadow i _

/-- The shadow state decides legality. -/
theorem legal_of_same_shadow (i : Instr) {s t : State} (h : shadowOf t = shadowOf s) : legal i t = legal i s := by
  obtain ⟨hlife, hcfg, hufm, herase⟩ := Shadow.mk.inj h
  exact legal_congr i s t herase hlife hcfg hufm

/-- Settles O53: the accept moves no shadow state, and legality depends on nothing else. -/
theorem legalityHoldsUntilReturn : Obligations.LegalityHoldsUntilReturn := by
  intro i s t hq h _
  rw [exec_ready i s hq, Host.Outcome.next.injEq] at h
  exact legal_of_same_shadow i (h ▸ accept_shadow i s)

theorem arg_of_not_pageFits (i : Instr) (h : i.pageFits = false) : 0x10000 ≤ (argOf i).toNat := by
  cases i
  case setCfgAddr | setUfmAddr => simpa [Instr.pageFits, argOf] using h
  all_goals simp [Instr.pageFits] at h

theorem rangeRefused_arg {i : Instr} {p : Params} (h : rangeRefused i p = true) : 0x10000 ≤ (argOf i).toNat := by
  simp only [rangeRefused, Bool.and_eq_true, Bool.not_eq_true'] at h
  exact arg_of_not_pageFits i h.1

/-- With `HARDEN = 1` the accept of a command that is out of order is a refusal, for RANGE first (spec/40_sequencer.md R131, R139). -/
theorem accept_hardened {i : Instr} {s : State} (start : State → State) (hh : s.params.harden = true) (hl : legal i s = false) :
    (rangeRefused i s.params = true ∧ accept i start s = refuse (opsel i) .range s) ∨
    accept i start s = refuse (opsel i) .order { s with seqViol := true } := by
  cases hrange : rangeRefused i s.params
  · exact .inr (by simp [accept, hrange, acceptOrdered_eq, hl, hh])
  · exact .inl ⟨rfl, by simp [accept, hrange]⟩

/-- Settles O51: the accept is one of the two refusals, and a refusal only responds. -/
theorem hardenRefusesOutOfOrder : Obligations.HardenRefusesOutOfOrder := by
  intro s c rest i hr hq hh hc hd hl
  obtain ⟨hop, harg⟩ := decode_selects c i hd
  refine ⟨nextState (useRstSample s), by rw [step_eq, hr]; rfl, ?_⟩
  rw [nextState_accept (useRstSample s) c rest i hq hc hd, hop, harg]
  have hlegal : legal i { useRstSample s with cmdIn := rest } = false := (legal_of_same_shadow i rfl).trans hl
  rcases accept_hardened (startOf i) (s := { useRstSample s with cmdIn := rest }) hh hlegal with ⟨hrange, ha⟩ | ha <;> rw [ha]
  · exact ⟨rfl, rfl, .inl rfl, fun _ => ⟨rfl, rangeRefused_arg hrange⟩, silent_refuse _ _ _, rfl, rfl, rfl⟩
  · exact ⟨rfl, rfl, .inr ⟨rfl, rfl⟩, fun herr => by simp [refuse] at herr, silent_refuse _ _ _, rfl, rfl, rfl⟩

end Sys2Proof.Machine

/-! PROOFS. The read operations of spec/41_read_ops.md. They rest on one fact for every wire command, that it runs as its own frame, its own
legality and its own effects say (spec/40_sequencer.md R130, R135 to R137, R140). -/

namespace Sys2Proof.Machine

/-! ### The run of a wire command -/

/-- The run of `i` from `s` by the model's own tables; it is out of order when it is not legal (spec/40_sequencer.md R130, R132). -/
def runOf (i : Instr) (s : State) : SimpleRun :=
  { op := opsel i, arg := argOf i, frame := frameBytes i, rn := readLen i, outOfOrder := !legal i s }

/-- The shadow state after the effects of `i` on the answer `a` (spec/40_sequencer.md R135). -/
def shadowAfter (i : Instr) (s : State) (a : Answer) : Shadow := shadowOf (applyEffects i a.bytes[0] s)

/-- The effects read the shadow state only. -/
theorem shadowAfter_of_same_shadow (i : Instr) {s t : State} (h : shadowOf t = shadowOf s) : shadowAfter i t = shadowAfter i s := by
  have hlegal := legal_of_same_shadow i h
  obtain ⟨hlife, hcfg, hufm, herase⟩ := Shadow.mk.inj h
  funext a
  have hafter : lifeAfter i t = lifeAfter i s := by rw [lifeAfter, lifeAfter, hlegal, hlife]
  simp only [shadowAfter, applyEffects_eq, shadowOf, hafter]
  cases i <;> simp only [flagEffects, hcfg, hufm, herase]

/-- On status 0 the effects leave `shadowAfter`; on any other they leave everything. -/
theorem effectsIfOk_shadowAfter (i : Instr) (a : Answer) (s : State) :
    effectsIfOk i a s =
      { s with
        life := if a.status = 0 then (shadowAfter i s a).life else s.life
        cfgPos := if a.status = 0 then (shadowAfter i s a).cfgPos else s.cfgPos
        ufmPos := if a.status = 0 then (shadowAfter i s a).ufmPos else s.ufmPos
        erasePend := if a.status = 0 then (shadowAfter i s a).erasePend else s.erasePend } := by
  simp only [shadowAfter, applyEffects_eq, shadowOf]
  exact effectsIfOk_eq i a s

theorem refuse_order_eq (op : BitVec 5) {s : State} (hq : s.seq = .ready) :
    refuse op .order { s with seqViol := true } = refusedOrder op s := by
  simp only [refuse, respond, refusedOrder, hq]

/-- The accept step of a wire command that is not refused for RANGE. -/
theorem exec_wire_ready {i : Instr} {s : State} (hw : i.isWire = true) (hrange : rangeRefused i s.params = false) (hq : s.seq = .ready) :
    exec i s = .next
      (if !legal i s && s.params.harden then refusedOrder (opsel i) s else accepted (runOf i s) s) := by
  rw [exec_ready i s hq, startOf_wire i hw, accept, hrange, if_neg Bool.false_ne_true, acceptOrdered_eq, refuse_order_eq _ hq]
  rfl

/-- The request of an accepted command is its frame. -/
theorem request_accepted (i : Instr) (s : State) :
    request (accepted (runOf i s) s) =
      { w := frameBytes i, wn := BitVec.ofNat 5 (frameBytes i).length, rn := readLen i } := by
  simp only [request, accepted, runOf, wn_toNat, overlay_take _ _ (frameBytes_length_le i)]

/-- The return step of an accepted command. -/
theorem xactReturn_accepted (i : Instr) (s : State) (a : Answer) (rest : Supply Answer) :
    xactReturn i a (recordReturn a { accepted (runOf i s) s with txIn := rest }) =
      completed (runOf i s) (shadowAfter i s a) (opsel i == 12 && busyBit a.bytes[0]) a rest s := by
  have hreq : request { accepted (runOf i s) s with txIn := rest } = _ := request_accepted i s
  have hshadow : shadowAfter i (recordReturn a { accepted (runOf i s) s with txIn := rest }) = shadowAfter i s :=
    shadowAfter_of_same_shadow i (recordReturn_shadow a _)
  rw [xactReturn, effectsIfOk_shadowAfter, hshadow, recordReturn_eq, hreq]
  simp [respond, xactResponse, completed, simpleResponse, accepted, runOf, readBytes]

/-- A wire command that is not refused for RANGE runs by its own frame, legality and effects; only IS_BUSY reports `busy`. -/
theorem runsAs_wire {i : Instr} {s : State} (hw : i.isWire = true) (hrange : rangeRefused i s.params = false) :
    RunsAs i (runOf i s) (shadowAfter i s) (fun a => opsel i == 12 && busyBit a.bytes[0]) s := by
  intro hq
  have haccept := exec_wire_ready hw hrange hq
  refine ⟨fun ⟨hout, hharden⟩ => ?_, fun hin => ⟨?_, fun a rest hpop => ?_⟩⟩
  · rw [haccept, if_pos (by rw [hharden, Bool.and_true]; exact hout)]
    rfl
  · have hgo : (!legal i s && s.params.harden) = false := Bool.and_eq_false_iff.mpr hin
    rw [haccept, hgo, if_neg Bool.false_ne_true]
  · have hcur : isCurrent i (accepted (runOf i s) s) = true := by simp [isCurrent, accepted, runOf]
    rw [exec_xact i (accepted (runOf i s) s) rfl hw hcur, onReturn_some _ (accepted (runOf i s) s) a rest hpop, xactReturn_accepted]

/-! ### Commands with no effects -/

/-- A wire command of class N with no flag effects, no page operand and no `busy` to report. -/
structure Effectless (i : Instr) : Prop where
  wire    : i.isWire = true
  fits    : i.pageFits = true
  noPoll  : (opsel i == 12) = false
  neutral : lifeClass i = .neutral
  flags   : ∀ b s, flagEffects i b s = s

theorem Effectless.shadowAfter_eq {i : Instr} (h : Effectless i) (s : State) : shadowAfter i s = fun _ => shadowOf s := by
  funext a
  have hlife : lifeAfter i s = s.life := by simp [lifeAfter, h.neutral, lifeNext]
  rw [shadowAfter, applyEffects_eq, h.flags, hlife]

/-- IS_BUSY apart, a wire command is judged by `erase_pend`, the lifecycle and its pointer (R132). -/
theorem legal_wire {i : Instr} (s : State) (hw : i.isWire = true) (hp : (opsel i == 12) = false) : legal i s = frameLegal i s := by
  cases i
  case isBusy => simp [opsel] at hp
  case waitBusy | loadHex => simp [Instr.isWire] at hw
  all_goals rfl

/-- An erase that is pending and a pointer that is not positioned are all that puts such a command out of order. -/
theorem Effectless.outOfOrder_eq {i : Instr} (h : Effectless i) (s : State) : (!legal i s) = (s.erasePend || !ptrOk i s) := by
  rw [legal_wire s h.wire h.noPoll, frameLegal, h.neutral]
  simp [lifeOk, lifeNext]

theorem Effectless.runsAs {i : Instr} (h : Effectless i) (s : State) :
    RunsAs i ⟨opsel i, argOf i, frameBytes i, readLen i, s.erasePend || !ptrOk i s⟩ (fun _ => shadowOf s) (fun _ => false) s := by
  have hrun := runsAs_wire (s := s) h.wire (by rw [rangeRefused, h.fits]; rfl)
  simpa only [runOf, h.outOfOrder_eq, h.shadowAfter_eq, h.noPoll, Bool.false_and] using hrun

theorem Effectless.runsAs_pointerless {i : Instr} (h : Effectless i) (s : State) (hptr : ptrOk i s = true) :
    RunsAs i ⟨opsel i, argOf i, frameBytes i, readLen i, s.erasePend⟩ (fun _ => shadowOf s) (fun _ => false) s := by
  simpa only [hptr, Bool.not_true, Bool.or_false] using h.runsAs s

/-! ### The reads -/

/-- The eight reads, op select 0 to 7 (spec/41_read_ops.md R160 to R167), have no effects. -/
theorem effectless_of_read (i : Instr) (hread : (opsel i).toNat ≤ 7) : Effectless i := by
  cases i
  case readId | readUsercode | readStatus | readFeatureBits | readFeatureRow | readOtp | readFlash | readUfm =>
    exact ⟨rfl, rfl, rfl, rfl, fun _ _ => rfl⟩
  all_goals simp [opsel] at hread

/-- The first six of them have no pointer either. -/
theorem ptrOk_of_plainRead (i : Instr) (s : State) (hplain : (opsel i).toNat ≤ 5) : ptrOk i s = true := by
  cases i
  case readFlash | readUfm | programPage => simp [opsel] at hplain
  all_goals rfl

theorem plainRead_runsAs (i : Instr) (s : State) (hplain : (opsel i).toNat ≤ 5) :
    RunsAs i ⟨opsel i, argOf i, frameBytes i, readLen i, s.erasePend⟩ (fun _ => shadowOf s) (fun _ => false) s :=
  (effectless_of_read i (by omega)).runsAs_pointerless s (ptrOk_of_plainRead i s hplain)

/-- Settles O9: each is a plain read, with the frame and the read length of its row. -/
theorem plainReadsRun : Obligations.PlainReadsRun := fun s arg =>
  ⟨plainRead_runsAs (.readId arg) s (by simp [opsel]), plainRead_runsAs (.readUsercode arg) s (by simp [opsel]),
    plainRead_runsAs (.readStatus arg) s (by simp [opsel]), plainRead_runsAs (.readFeatureBits arg) s (by simp [opsel]),
    plainRead_runsAs (.readFeatureRow arg) s (by simp [opsel]), plainRead_runsAs (.readOtp arg) s (by simp [opsel])⟩

/-- Settles O10: `ptrOk` of each is the flag of its own pointer. -/
theorem pointerReadsRun : Obligations.PointerReadsRun := fun s arg =>
  ⟨(effectless_of_read (.readFlash arg) (by simp [opsel])).runsAs s, (effectless_of_read (.readUfm arg) (by simp [opsel])).runsAs s⟩

end Sys2Proof.Machine

/-! PROOFS. The write operations of spec/42_write_ops.md. Each is read off its row of the lifecycle table of R133, its pointer condition and
its flag effects; the set-address operations pass the range check before that (spec/40_sequencer.md R131). -/

namespace Sys2Proof.Machine

/-! ### The rows of the lifecycle table (spec/40_sequencer.md R133) -/

theorem lifeNext_addr (l : Life) :
    lifeNext .addr l =
      if !(l == .programming || l == .finalizing) then
        some (if l == .erasing || l == .addrReset2 then .addrReset2 else .addrReset1)
      else none := by
  cases l <;> rfl

theorem lifeNext_erase (l : Life) : lifeNext .erase l = if l == .addrReset1 then some .erasing else none := by
  cases l <;> rfl

theorem lifeNext_page (l : Life) :
    lifeNext .page l = if l == .addrReset2 || l == .programming then some .programming else none := by
  cases l <;> rfl

theorem lifeNext_done (l : Life) : lifeNext .done l = if l == .programming then some .finalizing else none := by
  cases l <;> rfl

theorem lifeNext_refresh (l : Life) : lifeNext .refresh l = if l == .finalizing then some .activated else none := by
  cases l <;> rfl

theorem lifeNext_neutral (l : Life) : lifeNext .neutral l = if true then some l else none := by
  cases l <;> rfl

/-! ### The range check -/

theorem rangeRefused_eq_false {i : Instr} {p : Params} (h : i.pageFits = true ∨ p.pageOor = .truncate) : rangeRefused i p = false := by
  rcases h with h | h <;> simp [rangeRefused, h]

/-- A page that does not fit is refused under REFUSE, and only the response changes (spec/40_sequencer.md R131). -/
theorem exec_range_refused {i : Instr} {s : State} (hq : s.seq = .ready) (hfits : i.pageFits = false) (hoor : s.params.pageOor = .refuse) :
    exec i s =
      .next { s with r := { op := opsel i, err := .range }, trace := s.trace ++ [.rsp { op := opsel i, err := .range }] } := by
  have hrange : rangeRefused i s.params = true := by simp [rangeRefused, hfits, hoor]
  rw [exec_ready i s hq, accept, if_pos hrange, refuse, respond, ← hq]

/-! ### The run of an operation from its row -/

/-- A wire command other than IS_BUSY that the range check passes. -/
structure Sendable (i : Instr) (s : State) : Prop where
  wire    : i.isWire = true
  noPoll  : (opsel i == 12) = false
  inRange : rangeRefused i s.params = false

/-- What puts such a command out of order: an erase that is pending, a dash in its row (`inRow` is false), or its pointer (R132). -/
def rowOutOfOrder (i : Instr) (inRow : Bool) (s : State) : Bool := s.erasePend || !inRow || !ptrOk i s

section
variable {i : Instr} {s : State} {inRow : Bool} {target : Life}
  (h : Sendable i s) (hrow : lifeNext (lifeClass i) s.life = if inRow then some target else none)
include h hrow

theorem Sendable.not_legal : (!legal i s) = rowOutOfOrder i inRow s := by
  rw [legal_wire s h.wire h.noPoll, frameLegal, lifeOk, hrow, rowOutOfOrder]
  cases inRow <;> simp

/-- `life` moves in order only (R135). -/
theorem Sendable.lifeAfter_eq : lifeAfter i s = if rowOutOfOrder i inRow s then s.life else target := by
  rw [lifeAfter, hrow, ← h.not_legal hrow]
  cases hl : legal i s
  · rfl
  · cases inRow
    · have hout := h.not_legal hrow
      simp [hl, rowOutOfOrder] at hout
    · rfl

/-- The command runs by its row of the table and by its flag effects. -/
theorem Sendable.runsAs (flags : Shadow) (hflags : ∀ b, shadowOf (flagEffects i b s) = flags) :
    RunsAs i ⟨opsel i, argOf i, frameBytes i, readLen i, rowOutOfOrder i inRow s⟩
      (fun _ => { flags with life := if rowOutOfOrder i inRow s then s.life else target }) (fun _ => false) s := by
  have hshadow : shadowAfter i s = fun _ => { flags with life := if rowOutOfOrder i inRow s then s.life else target } := by
    funext a
    rw [shadowAfter, applyEffects_eq, h.lifeAfter_eq hrow, ← hflags a.bytes[0]]
    rfl
  have hrun := runsAs_wire (s := s) h.wire h.inRange
  rwa [hshadow, runOf, h.not_legal hrow, h.noPoll] at hrun

end

/-! ### The classes of the write operations with no pointer condition (spec/40_sequencer.md R142) -/

section
variable {i : Instr} {s : State} (h : Sendable i s) (hptr : ptrOk i s = true)
include h hptr

/-- Class N: out of order while an erase is pending, and `life` stays. -/
theorem Sendable.runsAs_neutral (hclass : lifeClass i = .neutral) (flags : Shadow) (hflags : ∀ b, shadowOf (flagEffects i b s) = flags) :
    RunsAs i ⟨opsel i, argOf i, frameBytes i, readLen i, s.erasePend⟩ (fun _ => { flags with life := s.life }) (fun _ => false) s := by
  have hrun := h.runsAs (by rw [hclass, lifeNext_neutral]) flags hflags
  simpa [rowOutOfOrder, hptr] using hrun

/-- Class A: the order and the move of R184. -/
theorem Sendable.runsAs_addr (hclass : lifeClass i = .addr) (hflags : ∀ b, flagEffects i b s = { s with cfgPos := true }) :
    RunsAs i ⟨opsel i, argOf i, frameBytes i, readLen i, addrOutOfOrder s⟩
      (fun _ => { shadowOf s with cfgPos := true, life := addrLife s }) (fun _ => false) s := by
  have hout : rowOutOfOrder i (!(s.life == .programming || s.life == .finalizing)) s = addrOutOfOrder s := by
    simp [rowOutOfOrder, addrOutOfOrder, hptr, Bool.or_assoc]
  have hrun := h.runsAs (by rw [hclass, lifeNext_addr]) _ (fun b => congrArg shadowOf (hflags b))
  rwa [hout] at hrun

/-- A row with one state that has no dash, as in the classes E, D and R: in order in `source` only, and then `life` moves to `target`. -/
theorem Sendable.runsAs_oneState {source target : Life}
    (hrow : lifeNext (lifeClass i) s.life = if s.life == source then some target else none)
    (flags : Shadow) (hflags : ∀ b, shadowOf (flagEffects i b s) = flags) :
    RunsAs i ⟨opsel i, argOf i, frameBytes i, readLen i, s.erasePend || s.life != source⟩
      (fun _ => { flags with life := if s.erasePend = false ∧ s.life = source then target else s.life }) (fun _ => false) s := by
  have hout : rowOutOfOrder i (s.life == source) s = (s.erasePend || s.life != source) := by
    rw [rowOutOfOrder, hptr, Bool.not_true, Bool.or_false, bne]
  have hlife : (if s.erasePend || s.life != source then s.life else target) =
      if s.erasePend = false ∧ s.life = source then target else s.life := by
    cases s.erasePend <;> by_cases hl : s.life = source <;> simp [hl]
  have hrun := h.runsAs hrow flags hflags
  rwa [hout, hlife] at hrun

end

/-! ### The write operations -/

theorem sendable_erase (flags : Word) (s : State) : Sendable (.erase flags) s := ⟨rfl, rfl, rfl⟩

/-- Settles O11: ERASE is of class E or N by flag bit 18, and both erases set `erase_pend`. -/
theorem erasesRun : Obligations.ErasesRun := fun s arg flags => by
  refine ⟨Sendable.runsAs_neutral (i := .eraseUfm arg) ⟨rfl, rfl, rfl⟩ rfl rfl { shadowOf s with erasePend := true } fun _ => rfl, ?_⟩
  cases hflash : flags.getLsbD 18
  · have hclass : lifeClass (.erase flags) = .neutral := by rw [lifeClass, hflash, if_neg Bool.false_ne_true]
    simp only [Bool.false_and, Bool.or_false, Bool.false_eq_true, false_and, if_false]
    exact (sendable_erase flags s).runsAs_neutral rfl hclass { shadowOf s with erasePend := true } fun _ => rfl
  · have hclass : lifeClass (.erase flags) = .erase := by rw [lifeClass, hflash, if_pos rfl]
    simp only [Bool.true_and, true_and]
    exact (sendable_erase flags s).runsAs_oneState rfl (by rw [hclass, lifeNext_erase]) { shadowOf s with erasePend := true } fun _ => rfl

/-- Settles O12: the three have no effects and no pointer condition. -/
theorem modeAndWakeupWritesRun : Obligations.ModeAndWakeupWritesRun := fun s arg =>
  ⟨Effectless.runsAs_pointerless (i := .enableCfgTransparent arg) ⟨rfl, rfl, rfl, rfl, fun _ _ => rfl⟩ s rfl,
    Effectless.runsAs_pointerless (i := .enableCfgOffline arg) ⟨rfl, rfl, rfl, rfl, fun _ _ => rfl⟩ s rfl,
    Effectless.runsAs_pointerless (i := .wakeup arg) ⟨rfl, rfl, rfl, rfl, fun _ _ => rfl⟩ s rfl⟩

/-- Settles O13: both are of class A, and SET_CFG_ADDR has the range check first. -/
theorem cfgAddressWritesRun : Obligations.CfgAddressWritesRun := fun s arg page => by
  refine ⟨?_, fun hpage => ?_, fun hq hpage hoor => ?_⟩
  · exact Sendable.runsAs_addr (i := .resetCfgAddr arg) ⟨rfl, rfl, rfl⟩ rfl rfl fun _ => rfl
  · have hsend : Sendable (.setCfgAddr page) s := ⟨rfl, rfl, rangeRefused_eq_false (hpage.imp_left decide_eq_true)⟩
    exact hsend.runsAs_addr rfl rfl fun _ => rfl
  · exact exec_range_refused (i := .setCfgAddr page) hq (decide_eq_false (Nat.not_lt.mpr hpage)) hoor

/-- Settles O14: both are of class N, and SET_UFM_ADDR has the range check first. -/
theorem ufmAddressWritesRun : Obligations.UfmAddressWritesRun := fun s arg page => by
  refine ⟨?_, fun hpage => ?_, fun hq hpage hoor => ?_⟩
  · exact Sendable.runsAs_neutral (i := .resetUfmAddr arg) ⟨rfl, rfl, rfl⟩ rfl rfl { shadowOf s with ufmPos := true } fun _ => rfl
  · have hsend : Sendable (.setUfmAddr page) s := ⟨rfl, rfl, rangeRefused_eq_false (hpage.imp_left decide_eq_true)⟩
    exact hsend.runsAs_neutral rfl rfl { shadowOf s with ufmPos := true } fun _ => rfl
  · exact exec_range_refused (i := .setUfmAddr page) hq (decide_eq_false (Nat.not_lt.mpr hpage)) hoor

theorem rowOutOfOrder_programPage (arg : Word) (buf : Buf) (s : State) :
    rowOutOfOrder (.programPage arg buf) (s.life == .addrReset2 || s.life == .programming) s = pageOutOfOrder s := by
  rw [rowOutOfOrder, pageOutOfOrder, ptrOk, Bool.or_right_comm]

/-- Settles O15: class P, with the configuration pointer. -/
theorem programPageRuns : Obligations.ProgramPageRuns := fun s arg buf => by
  have hsend : Sendable (.programPage arg buf) s := ⟨rfl, rfl, rfl⟩
  have hrun := hsend.runsAs (lifeNext_page s.life) (shadowOf s) fun _ => rfl
  rwa [rowOutOfOrder_programPage] at hrun

/-- Settles O16: class D and class R, each in order in one lifecycle state, neither with a pointer condition. -/
theorem finalizeWritesRun : Obligations.FinalizeWritesRun := fun s arg => by
  have hdone : Sendable (.programDone arg) s := ⟨rfl, rfl, rfl⟩
  have hrefresh : Sendable (.refresh arg) s := ⟨rfl, rfl, rfl⟩
  exact ⟨hdone.runsAs_oneState rfl (lifeNext_done s.life) (shadowOf s) fun _ => rfl,
    hrefresh.runsAs_oneState rfl (lifeNext_refresh s.life) { shadowOf s with cfgPos := false, ufmPos := false } fun _ => rfl⟩

end Sys2Proof.Machine

/-! PROOFS. The busy wait of spec/43_busy_wait.md. One poll is a rule for each way it can go (R212); a run of busy polls is one record update of
the state that began it (`afterBusyPolls`), and the statements about WAIT_BUSY are read off the poll that follows such a run. -/

namespace Sys2Proof.Machine

/-! ### The accept steps -/

/-- Settles O17: IS_BUSY is legal in every state, of class N, and its flag effect is the busy bit. -/
theorem isBusyRuns : Obligations.IsBusyRuns := fun s arg =>
  runsAs_wire (i := .isBusy arg) (s := s) rfl rfl

/-- WAIT_BUSY was accepted: its first poll is pending (spec/43_busy_wait.md R211). -/
def waitAccepted (arg : Word) (s : State) : State :=
  { s with
    seq := .poll
    curOp := 21
    curArg := arg
    stAcc := 0
    pollCnt := 0
    fb := overlay [0xF0, 0, 0, 0] (Config.fbTail s.draws)
    wn := 4
    rn := 1
    draws := s.draws + 1 }

theorem accept_waitBusy (arg : Word) (s : State) : accept (.waitBusy arg) startPoll s = waitAccepted arg s := rfl

/-- Settles O20: WAIT_BUSY passes the range check and is legal in every state. -/
theorem waitBusyAccepted : Obligations.WaitBusyAccepted := fun s arg hq => by
  rw [exec_ready _ s hq]
  exact congrArg _ (accept_waitBusy arg s)

/-- What is sent at each poll is the frame of IS_BUSY. -/
theorem request_waitAccepted (arg : Word) (s : State) : (request (waitAccepted arg s)).w = [0xF0, 0, 0, 0] :=
  overlay_take [0xF0, 0, 0, 0] (Config.fbTail s.draws) (by simp)

/-! ### One poll (R212) -/

/-- `r_data` of a one-byte read. -/
theorem dataField_one (bytes : Payload) : dataField 1 bytes = (Vector.replicate 16 (0 : Byte)).set 0 bytes[0] := by
  have hread : readBytes 1 bytes = [bytes[0]] := by
    show bytes.toList.take (0 + 1) = [bytes[0]]
    rw [List.take_add_one]; simp
  simp only [dataField, hread]
  rfl

theorem limitReached_countPoll_iff (s : State) :
    limitReached (countPoll s) = true ↔ s.params.pollLimit ≠ 0 ∧ s.params.pollLimit.toNat ≤ (satInc s.pollCnt).toNat := by
  simp only [limitReached, countPoll_params, countPoll_pollCnt, Bool.and_eq_true, bne_iff_ne, decide_eq_true_eq, BitVec.le_def]

section
variable {a : Answer} {s : State}

theorem pollReturn_ready (hb : busyBit a.bytes[0] = false) :
    pollReturn a s = respond (pollResponse .ok a s) (readyPoll a s) := by
  rw [pollReturn, if_neg (by rw [hb]; exact Bool.false_ne_true)]

theorem pollReturn_timeout (hb : busyBit a.bytes[0] = true) (hlim : limitReached (countPoll s) = true) :
    pollReturn a s = respond (pollResponse .timeout a (countPoll s)) (countPoll s) := by
  rw [pollReturn, if_pos hb, busyPoll, if_pos hlim]

theorem pollReturn_again (hb : busyBit a.bytes[0] = true) (hlim : limitReached (countPoll s) = false) :
    pollReturn a s = countPoll s := by
  rw [pollReturn, if_pos hb, busyPoll, if_neg (by rw [hlim]; exact Bool.false_ne_true)]

end

/-- The first non-zero status stays (spec/10_state.md R24). -/
def latchStatus (acc : Word) (a : Answer) : Word := if acc = 0 then a.status else acc

/-- A poll as it is listed. -/
def pollEvent (s : State) (a : Answer) : Event := .tx (request s) a.status (readBytes s.rn a.bytes)

/-- The common part of a poll's return (spec/40_sequencer.md R136): whatever the byte read, the transaction is listed and a failure latched. -/
def afterPoll (a : Answer) (rest : Supply Answer) (s : State) : State :=
  { s with
    txIn := rest
    stAcc := latchStatus s.stAcc a
    xfail := s.xfail || a.status != 0
    trace := s.trace ++ [pollEvent s a] }

theorem onReturn_poll {s : State} {a : Answer} {rest : Supply Answer} (hq : s.seq = .poll)
    (hpop : s.txIn.pop freeAnswer = some (a, rest)) : onReturn pollReturn s = pollReturn a (afterPoll a rest s) := by
  rw [onReturn_some pollReturn s a rest hpop, recordReturn_eq]
  simp only [afterPoll, latchStatus, pollEvent, request, hq]

theorem exec_poll (arg : Word) {s : State} (hq : s.seq = .poll) : exec (.waitBusy arg) s = .next (onReturn pollReturn s) := by
  simp only [exec, execWaitBusy, hq]

/-- Settles O21: one case for each way of the poll; its count saturates at 32 ones. -/
theorem pollStep : Obligations.PollStep := by
  intro s arg a rest hq hpop cnt' d tx
  have hlim : limitReached (countPoll (afterPoll a rest s)) = true ↔ s.params.pollLimit ≠ 0 ∧ s.params.pollLimit.toNat ≤ cnt'.toNat :=
    limitReached_countPoll_iff (afterPoll a rest s)
  rw [exec_poll arg hq, onReturn_poll hq hpop]
  refine ⟨fun hb => ?_, fun hb hreached => ?_, fun hb hbelow => ?_⟩
  · rw [pollReturn_ready hb, readyPoll_eq, pollResponse, dataField_one, show busyBit a.bytes[0] = false from hb]
    simp only [respond, afterPoll, List.append_assoc]
    rfl
  · rw [pollReturn_timeout hb (hlim.mpr hreached), pollResponse, dataField_one, show busyBit a.bytes[0] = true from hb]
    simp only [respond, countPoll, afterPoll, List.append_assoc]
    rfl
  · have hagain : limitReached (countPoll (afterPoll a rest s)) = false := by
      rw [← Bool.not_eq_true, hlim]
      rintro ⟨hne, hle⟩
      exact hbelow.elim hne (Nat.not_lt.mpr hle)
    rw [pollReturn_again hb hagain]
    rfl

/-! ### Runs of steps -/

theorem stepsTo_of_step {s t : State} (h : step s = .next t) (k : Nat) : stepsTo (k + 1) s = stepsTo k t := by
  simp only [stepsTo, h]

theorem stepsTo_trans {j k : Nat} {s t u : State} (h : stepsTo j s = some t) (h' : stepsTo k t = some u) : stepsTo (j + k) s = some u := by
  induction j generalizing s with
  | zero =>
    obtain rfl : s = t := Option.some.inj h
    rwa [Nat.zero_add]
  | succ j ih =>
    have hs := step_eq s
    rw [stepsTo_of_step hs] at h
    rw [Nat.succ_add, stepsTo_of_step hs, ih h]

/-- With no sample of RST to come a step is the block's own part. -/
theorem step_of_no_sample {s : State} (h : s.rstIn = {}) : step s = .next (nextState s) := by
  have hrst : rstNow s = false := by rw [rstNow, h]; rfl
  have hself : useRstSample s = s := by rw [useRstSample, h, Supply.rest_nothing, ← h]
  rw [step_eq, hrst, hself, if_neg Bool.false_ne_true]

theorem step_poll {s : State} {a : Answer} {rest : Supply Answer} (hq : s.seq = .poll) (hr : s.rstIn = {})
    (hpop : s.txIn.pop freeAnswer = some (a, rest)) : step s = .next (pollReturn a (afterPoll a rest s)) := by
  rw [step_of_no_sample hr, nextState_poll s hq, onReturn_poll hq hpop]

/-! ### A run of busy polls (R213) -/

/-- The state after the busy polls `busy`, as one update: the transactions are listed, the first failure is latched, the polls are counted. -/
def afterBusyPolls (busy : List Answer) (left : Supply Answer) (s : State) : State :=
  { s with
    txIn := left
    stAcc := busy.foldl latchStatus s.stAcc
    xfail := s.xfail || busy.any (·.status != 0)
    pollCnt := satInc^[busy.length] s.pollCnt
    trace := s.trace ++ busy.map (pollEvent s) }

theorem afterBusyPolls_cons (a : Answer) (busy : List Answer) (rest left : Supply Answer) (s : State) :
    afterBusyPolls busy left (countPoll (afterPoll a rest s)) = afterBusyPolls (a :: busy) left s := by
  have hevent : pollEvent (countPoll (afterPoll a rest s)) = pollEvent s := rfl
  rw [afterBusyPolls, hevent]
  simp only [afterBusyPolls, countPoll, afterPoll, List.foldl_cons, List.any_cons, List.length_cons, List.map_cons,
    Function.iterate_succ_apply, Bool.or_assoc, List.append_assoc, List.singleton_append]

/-- `n` more busy polls end before the limit, if there is one. -/
def BelowLimit (n : Nat) (s : State) : Prop := s.params.pollLimit = 0 ∨ s.pollCnt.toNat + n < s.params.pollLimit.toNat

/-- Below the limit a busy poll leads to the next poll, and the limit is one poll nearer. -/
theorem BelowLimit.pollAgain {n : Nat} {s : State} {a : Answer} (rest : Supply Answer) (hb : busyBit a.bytes[0] = true)
    (h : BelowLimit (n + 1) s) :
    pollReturn a (afterPoll a rest s) = countPoll (afterPoll a rest s) ∧ BelowLimit n (countPoll (afterPoll a rest s)) := by
  have hcount : (satInc s.pollCnt).toNat ≤ s.pollCnt.toNat + 1 := satInc_toNat_le s.pollCnt
  constructor
  · refine pollReturn_again hb ?_
    rw [← Bool.not_eq_true, limitReached_countPoll_iff]
    rintro ⟨hne, hle⟩
    rcases h with h | h
    · exact hne h
    · simp only [afterPoll] at hle; omega
  · refine h.imp_right fun h => ?_
    simp only [countPoll, afterPoll]; omega

/-- Busy polls below the limit are a run of the machine, one step each. -/
theorem stepsTo_busyPolls {busy : List Answer} {left : Supply Answer} {s : State} (hq : s.seq = .poll) (hr : s.rstIn = {})
    (hgives : s.txIn.Gives freeAnswer busy left) (hbusy : ∀ a ∈ busy, busyBit a.bytes[0] = true) (hlim : BelowLimit busy.length s) :
    stepsTo busy.length s = some (afterBusyPolls busy left s) := by
  induction busy generalizing s with
  | nil =>
    obtain rfl : s.txIn = left := hgives
    simp [stepsTo, afterBusyPolls]
  | cons a busy ih =>
    obtain ⟨rest, hpop, hmore⟩ := hgives
    obtain ⟨hagain, hlim'⟩ := hlim.pollAgain rest (hbusy a List.mem_cons_self)
    rw [List.length_cons, stepsTo_of_step (step_poll hq hr hpop), hagain, ← afterBusyPolls_cons a busy rest]
    exact ih hq hr hmore (fun b hb => hbusy b (List.mem_cons_of_mem a hb)) hlim'

/-! What is read off such a run. -/

theorem satInc_iterate_toNat {w : Nat} (n : Nat) (x : BitVec w) (h : x.toNat + n < 2 ^ w) : (satInc^[n] x).toNat = x.toNat + n := by
  induction n with
  | zero => rfl
  | succ n ih =>
    have hn := ih (by omega)
    rw [Function.iterate_succ_apply', satInc_toNat _ (by omega), hn, Nat.add_assoc]

/-- What is latched is the first non-zero status. -/
theorem foldl_latchStatus (acc : Word) (answers : List Answer) :
    answers.foldl latchStatus acc = ((acc :: answers.map Answer.status).find? (· != 0)).getD 0 := by
  induction answers generalizing acc with
  | nil => rcases eq_or_ne acc 0 with rfl | h <;> simp_all
  | cons a answers ih =>
    rw [List.foldl_cons, ih]
    rcases eq_or_ne acc 0 with rfl | h
    · rfl
    · have hlatched : latchStatus acc a = acc := if_neg h
      have hfirst : (acc != 0) = true := bne_iff_ne.mpr h
      simp only [hlatched, List.find?_cons, hfirst]

theorem framesSent_afterBusyPolls (busy : List Answer) (left : Supply Answer) (s : State) :
    framesSent (afterBusyPolls busy left s) = framesSent s ++ List.replicate busy.length (request s).w := by
  have hsent : (busy.map (pollEvent s)).filterMap Event.written = List.replicate busy.length (request s).w := by
    rw [List.filterMap_map, show Event.written ∘ pollEvent s = fun _ => some (request s).w from rfl]
    simp
  rw [framesSent, afterBusyPolls, List.filterMap_append, hsent, framesSent]

/-- A poll lists its transaction, whatever it decides. -/
theorem framesSent_pollReturn (a : Answer) (rest : Supply Answer) (s : State) :
    framesSent (pollReturn a (afterPoll a rest s)) = framesSent s ++ [(request s).w] := by
  rw [silent_pollReturn a, framesSent, afterPoll, List.filterMap_append, framesSent]
  rfl

/-! ### WAIT_BUSY -/

/-- The next step of `s` takes the command `c`, and it is WAIT_BUSY. -/
structure TakesWaitBusy (s : State) (c : Cmd) (rest : Supply Cmd) : Prop where
  ready    : s.seq = .ready
  noSample : s.rstIn = {}
  taken    : s.cmdIn.pop freeCmd = some (c, rest)
  isWait   : c.op = 21

/-- WAIT_BUSY was taken from CMD and accepted. -/
def waitTaken (c : Cmd) (rest : Supply Cmd) (s : State) : State := waitAccepted c.arg { s with cmdIn := rest }

/-- Each poll of the run sends the frame of IS_BUSY. -/
theorem framesSent_waitTaken_busy (c : Cmd) (rest : Supply Cmd) (s : State) (busy : List Answer) (left : Supply Answer) :
    framesSent (afterBusyPolls busy left (waitTaken c rest s)) =
      framesSent s ++ List.replicate busy.length [0xF0, 0, 0, 0] := by
  rw [framesSent_afterBusyPolls, waitTaken, request_waitAccepted]
  rfl

/-- The poll after it sends one frame more. -/
theorem framesSent_waitTaken_lastPoll (c : Cmd) (rest : Supply Cmd) (s : State) (busy : List Answer) (a : Answer) (more : Supply Answer) :
    framesSent (pollReturn a (afterPoll a more (afterBusyPolls busy more (waitTaken c rest s)))) =
      framesSent s ++ List.replicate (busy.length + 1) [0xF0, 0, 0, 0] := by
  have hrequest : (request (afterBusyPolls busy more (waitTaken c rest s))).w = [0xF0, 0, 0, 0] := request_waitAccepted c.arg _
  rw [framesSent_pollReturn, framesSent_waitTaken_busy, hrequest, List.append_assoc, List.replicate_succ']

section
variable {s : State} {c : Cmd} {rest : Supply Cmd} (h : TakesWaitBusy s c rest)
include h

theorem TakesWaitBusy.step_accept : step s = .next (waitTaken c rest s) := by
  have hdecode : decode c = .ok (.waitBusy c.arg) := by simp only [decode, h.isWait]; rfl
  rw [step_of_no_sample h.noSample, nextState_accept s c rest _ h.ready h.taken hdecode]
  exact congrArg _ (accept_waitBusy c.arg _)

/-- The accept step and the busy polls after it. -/
theorem TakesWaitBusy.stepsTo_busy {busy : List Answer} {left : Supply Answer} (hgives : s.txIn.Gives freeAnswer busy left)
    (hbusy : ∀ a ∈ busy, busyBit a.bytes[0] = true) (hlim : s.params.pollLimit = 0 ∨ busy.length < s.params.pollLimit.toNat) :
    stepsTo (busy.length + 1) s = some (afterBusyPolls busy left (waitTaken c rest s)) := by
  have hbelow : BelowLimit busy.length (waitTaken c rest s) :=
    hlim.imp_right fun hlt => (Nat.zero_add busy.length).symm ▸ hlt
  rw [stepsTo_of_step h.step_accept]
  exact stepsTo_busyPolls rfl h.noSample hgives hbusy hbelow

/-- One poll more. What the transport had left before it plays no part in the result. -/
theorem TakesWaitBusy.stepsTo_lastPoll {busy : List Answer} {a : Answer} {more : Supply Answer}
    (hgives : s.txIn.Gives freeAnswer (busy ++ [a]) more) (hbusy : ∀ b ∈ busy, busyBit b.bytes[0] = true)
    (hlim : s.params.pollLimit = 0 ∨ busy.length < s.params.pollLimit.toNat) :
    stepsTo (busy.length + 2) s =
      some (pollReturn a (afterPoll a more (afterBusyPolls busy more (waitTaken c rest s)))) := by
  obtain ⟨mid, hmid, q, hpop, rfl⟩ := (Supply.gives_append freeAnswer s.txIn more busy [a]).mp hgives
  have hlast := step_poll (s := afterBusyPolls busy mid (waitTaken c rest s)) rfl h.noSample hpop
  exact stepsTo_trans (j := busy.length + 1) (k := 1) (h.stepsTo_busy hmid hbusy hlim) (stepsTo_of_step hlast 0)

end

/-- Settles O24: the run of busy polls is all that has happened. -/
theorem waitBusyHangsWhileBusy : Obligations.WaitBusyHangsWhileBusy := by
  intro s c rest busy more hq hr hc hop hgives hbusy hlim
  have h : TakesWaitBusy s c rest := ⟨hq, hr, hc, hop⟩
  exact ⟨_, h.stepsTo_busy hgives hbusy (.inl hlim), rfl, rfl, rfl, framesSent_waitTaken_busy c rest s busy more⟩

/-- Settles O22: the run of busy polls, then a ready one. -/
theorem waitBusyCountsBusyPolls : Obligations.WaitBusyCountsBusyPolls := by
  intro s c rest busy rdy more hq hr hc hop hgives hbusy hrdy hlen hlim
  have h : TakesWaitBusy s c rest := ⟨hq, hr, hc, hop⟩
  refine ⟨_, h.stepsTo_lastPoll hgives hbusy hlim, ?_⟩
  have hsent := framesSent_waitTaken_lastPoll c rest s busy rdy more
  rw [pollReturn_ready hrdy, readyPoll_eq] at hsent ⊢
  refine ⟨rfl, rfl, rfl, ?_, hrdy, ?_, hsent, rfl, rfl⟩
  · exact (satInc_iterate_toNat busy.length (0 : Word) (by simpa using hlen)).trans (Nat.zero_add _)
  · have hlatched := foldl_latchStatus 0 (busy ++ [rdy])
    rw [List.foldl_append] at hlatched
    exact hlatched

/-- Settles O23: the run of all busy polls but the last, then the one at the limit. -/
theorem waitBusyTimesOutAtLimit : Obligations.WaitBusyTimesOutAtLimit := by
  intro s c rest busy more hq hr hc hop hgives hbusy hne hlen
  have h : TakesWaitBusy s c rest := ⟨hq, hr, hc, hop⟩
  obtain rfl | ⟨before, a, rfl⟩ := List.eq_nil_or_concat' busy
  · exact absurd (BitVec.eq_of_toNat_eq hlen.symm) hne
  rw [List.length_append, List.length_singleton] at hlen ⊢
  have ha : busyBit a.bytes[0] = true := hbusy a (by simp)
  have hcount : (countPoll (afterPoll a more (afterBusyPolls before more (waitTaken c rest s)))).pollCnt = s.params.pollLimit := by
    have hfits : (0 : Word).toNat + (before.length + 1) < 2 ^ 32 := by simpa [hlen] using s.params.pollLimit.isLt
    have hiterate := satInc_iterate_toNat (before.length + 1) (0 : Word) hfits
    rw [Function.iterate_succ_apply'] at hiterate
    exact BitVec.eq_of_toNat_eq (hiterate.trans ((Nat.zero_add _).trans hlen))
  have hreached := (limitReached_countPoll_iff (afterPoll a more (afterBusyPolls before more (waitTaken c rest s)))).mpr
    ⟨hne, (congrArg BitVec.toNat hcount).ge⟩
  refine ⟨_, h.stepsTo_lastPoll hgives (fun b hb => hbusy b (by simp [hb])) (.inr (by omega)), ?_⟩
  have hsent := framesSent_waitTaken_lastPoll c rest s before a more
  rw [pollReturn_timeout ha hreached] at hsent ⊢
  exact ⟨rfl, rfl, rfl, hcount, ha, hsent, rfl, rfl, rfl⟩

/-! ### The end of a wait without a limit (R215) -/

theorem step_busyPoll_of_no_limit {s : State} {a : Answer} {rest : Supply Answer} (hq : s.seq = .poll) (hr : s.rstIn = {})
    (hlim : s.params.pollLimit = 0) (hpop : s.txIn.pop freeAnswer = some (a, rest)) (hb : busyBit a.bytes[0] = true) :
    step s = .next (countPoll (afterPoll a rest s)) := by
  have hbelow : BelowLimit 1 s := .inl hlim
  rw [step_poll hq hr hpop, (hbelow.pollAgain rest hb).1]

/-- Some poll byte that the transport presents has bit 7 clear. -/
def ReadyPollComes (q : Supply Answer) : Prop :=
  ∃ answers more, q.Gives freeAnswer answers more ∧ ∃ a ∈ answers, busyBit a.bytes[0] = false

theorem ReadyPollComes.of_pop {q rest : Supply Answer} {a : Answer} (hpop : q.pop freeAnswer = some (a, rest))
    (h : busyBit a.bytes[0] = false ∨ ReadyPollComes rest) : ReadyPollComes q := by
  rcases h with ha | ⟨answers, more, hgives, b, hb, hready⟩
  · exact ⟨[a], rest, ⟨rest, hpop, rfl⟩, a, List.mem_singleton_self a, ha⟩
  · exact ⟨a :: answers, more, ⟨rest, hpop, hgives⟩, b, List.mem_cons_of_mem a hb, hready⟩

/-- Without a limit a wait that has ended met a ready poll. -/
theorem readyPollComes_of_end {k : Nat} {s t : State} (hq : s.seq = .poll) (hr : s.rstIn = {}) (hlim : s.params.pollLimit = 0)
    (hrun : stepsTo k s = some t) (hend : t.seq = .ready) : ReadyPollComes s.txIn := by
  induction k generalizing s with
  | zero =>
    obtain rfl : s = t := Option.some.inj hrun
    rw [hq] at hend
    simp at hend
  | succ k ih =>
    cases hpop : s.txIn.pop freeAnswer with
    | none =>
      have hwait : step s = .next s := by
        rw [step_of_no_sample hr, nextState_poll s hq, onReturn_none pollReturn s hpop]
      rw [stepsTo_of_step hwait] at hrun
      exact ih hq hr hlim hrun
    | some answered =>
      obtain ⟨a, rest⟩ := answered
      cases hb : busyBit a.bytes[0]
      · exact .of_pop hpop (.inl hb)
      · rw [stepsTo_of_step (step_busyPoll_of_no_limit hq hr hlim hpop hb)] at hrun
        exact .of_pop hpop (.inr (ih (s := countPoll (afterPoll a rest s)) hq hr hlim hrun))

/-- A wait that meets a ready poll ends there. -/
theorem ends_of_readyPoll {answers : List Answer} {more : Supply Answer} {s : State} (hq : s.seq = .poll) (hr : s.rstIn = {})
    (hlim : s.params.pollLimit = 0) (hgives : s.txIn.Gives freeAnswer answers more) (hready : ∃ a ∈ answers, busyBit a.bytes[0] = false) :
    ∃ k t, stepsTo k s = some t ∧ t.seq = .ready := by
  induction answers generalizing s with
  | nil => simp at hready
  | cons a answers ih =>
    obtain ⟨rest, hpop, hmore⟩ := hgives
    cases hb : busyBit a.bytes[0]
    · exact ⟨1, _, stepsTo_of_step (step_poll hq hr hpop) 0, by rw [pollReturn_ready hb, respond_seq]⟩
    · have hlater : ∃ b ∈ answers, busyBit b.bytes[0] = false := by simpa [hb] using hready
      obtain ⟨k, t, hrun, hend⟩ := ih (s := countPoll (afterPoll a rest s)) hq hr hlim hmore hlater
      exact ⟨k + 1, t, (stepsTo_of_step (step_busyPoll_of_no_limit hq hr hlim hpop hb) k).trans hrun, hend⟩

/-- A device that is stuck busy answers every poll so. -/
def stuckAnswer : Answer := { status := 0, bytes := Vector.replicate 16 0x80 }

/-- After reset, WAIT_BUSY is on CMD and the device is stuck busy. -/
def stuckBusy : State :=
  { State.reset with cmdIn := { now := [encode (.waitBusy 0)] }, txIn := { later := .again stuckAnswer [] } }

theorem stuckBusy_takesWaitBusy : TakesWaitBusy stuckBusy (encode (.waitBusy 0)) {} := ⟨rfl, rfl, rfl, rfl⟩

/-- The endless run: any number of polls, all busy, and no end. -/
theorem stuckBusy_stepsTo (n : Nat) :
    stepsTo (n + 1) stuckBusy =
      some (afterBusyPolls (List.replicate n stuckAnswer) stuckBusy.txIn (waitTaken (encode (.waitBusy 0)) {} stuckBusy)) := by
  have hbusy : ∀ a ∈ List.replicate n stuckAnswer, busyBit a.bytes[0] = true := by
    intro a ha
    rw [List.eq_of_mem_replicate ha]
    decide
  have hrun := stuckBusy_takesWaitBusy.stepsTo_busy (Supply.gives_again freeAnswer stuckAnswer n) hbusy (.inl rfl)
  rwa [List.length_replicate] at hrun

/-- Settles O25: the ready poll from the end and the end from the ready poll; a device that is stuck busy; POLL takes no command. -/
theorem waitBusyEndsOnlyOnReadyPoll : Obligations.WaitBusyEndsOnlyOnReadyPoll := by
  refine ⟨fun s c rest hq hr hc hop hlim => ?_, ?_, fun s t hr hq hstep => ?_⟩
  · have h : TakesWaitBusy s c rest := ⟨hq, hr, hc, hop⟩
    simp only [stepsTo_of_step h.step_accept]
    constructor
    · rintro ⟨k, t, hrun, hend⟩
      exact readyPollComes_of_end (s := waitTaken c rest s) rfl hr hlim hrun hend
    · rintro ⟨answers, more, hgives, hready⟩
      exact ends_of_readyPoll (s := waitTaken c rest s) rfl hr hlim hgives hready
  · obtain ⟨hq, hr, hc, hop⟩ := stuckBusy_takesWaitBusy
    refine ⟨stuckBusy, _, _, hq, hr, hc, hop, rfl, fun n => ⟨_, stuckBusy_stepsTo n, rfl, rfl, rfl, ?_⟩⟩
    rw [framesSent_waitTaken_busy, List.length_replicate]
  · rw [step_next_of_no_rst hr hstep]
    exact nextState_cmdIn_of_busy (useRstSample s) (by rw [useRstSample_seq, hq]; simp)

end Sys2Proof.Machine

/-! PROOFS. The steps of the hex stream loader of spec/44_hex_loader.md, one rule each: the accept step, the two returns, and a token of each
kind. A rule is the whole next state as one record update. -/

namespace Sys2Proof.Machine

/-! ### Accept (R230) -/

/-- LOAD_HEX is in order only where its own pointer reset is (spec/40_sequencer.md R132). -/
theorem legal_resetCfgAddr_of_loadHex {arg arg' : Word} {s : State} (h : legal (.loadHex arg) s = true) :
    legal (.resetCfgAddr arg') s = true := by
  simp only [legal, Bool.and_eq_true, Bool.or_eq_true, beq_iff_eq, Bool.not_eq_true'] at h
  obtain ⟨herase, hlife | hlife⟩ := h <;> simp [legal, frameLegal, herase, hlife, lifeOk, lifeClass, lifeNext, ptrOk]

/-- LOAD_HEX was accepted: the loader's registers are clear and the pointer reset is pending. -/
def loadAccepted (arg : Word) (outOfOrder : Bool) (s : State) : State :=
  { s with
    seq := .lhReset
    curOp := 22
    curArg := arg
    stAcc := 0
    seqViol := s.seqViol || outOfOrder
    cnt := 0, haveHi := false, recFull := false, recOvf := false, pages := 0, nOdd := 0, nOvf := 0
    fb := overlay [0x46, 0, 0, 0] (Config.fbTail s.draws)
    wn := 4
    rn := 0
    draws := s.draws + 1 }

/-- The check of the pointer reset flags nothing that the check of LOAD_HEX has not flagged. -/
theorem startLoad_accepted (arg : Word) (s : State) :
    startLoad { s with seqViol := s.seqViol || !legal (.loadHex arg) s, curOp := 22, curArg := arg, stAcc := 0 } =
      loadAccepted arg (!legal (.loadHex arg) s) s := by
  have hreset : (!legal (.loadHex arg) s || !legal (.resetCfgAddr 0) s) = !legal (.loadHex arg) s := by
    cases h : legal (.loadHex arg) s
    · rfl
    · rw [legal_resetCfgAddr_of_loadHex h]; rfl
  rw [startLoad_eq, Bool.or_assoc]
  exact congrArg (loadAccepted arg · s) hreset

/-- Settles O26: there is no page operand to check the range of; then the order check and the accept step. -/
theorem loadHexAccepted : Obligations.LoadHexAccepted := by
  intro s arg hq v
  have hrange : rangeRefused (.loadHex arg) s.params = false := rfl
  have hlegal : (!legal (.loadHex arg) s) = v := by simp [v, legal]
  have haccept : exec (.loadHex arg) s =
      .next (if v && s.params.harden then refusedOrder 22 s else loadAccepted arg v s) := by
    rw [exec_ready _ s hq, accept, hrange, if_neg Bool.false_ne_true, acceptOrdered_eq, refuse_order_eq _ hq, ← hlegal, ← startLoad_accepted]
    rfl
  refine ⟨fun ⟨hout, hharden⟩ => ?_, fun hin => ?_⟩
  · rw [haccept, hout, hharden, Bool.and_self, if_pos rfl]
  · rw [haccept, Bool.and_eq_false_iff.mpr hin, if_neg Bool.false_ne_true]
    rfl

/-! ### The two returns (R231, R235) -/

theorem lifeAfter_resetCfgAddr (arg : Word) (s : State) : lifeAfter (.resetCfgAddr arg) s = addrLife s := by
  have hsend : Sendable (.resetCfgAddr arg) s := ⟨rfl, rfl, rfl⟩
  have hout : rowOutOfOrder (.resetCfgAddr arg) (!(s.life == .programming || s.life == .finalizing)) s = addrOutOfOrder s := by
    simp [rowOutOfOrder, addrOutOfOrder, ptrOk, Bool.or_assoc]
  rw [hsend.lifeAfter_eq (lifeNext_addr s.life), hout, addrLife]

theorem not_legal_programPage (arg : Word) (buf : Buf) (s : State) : (!legal (.programPage arg buf) s) = pageOutOfOrder s := by
  have hsend : Sendable (.programPage arg buf) s := ⟨rfl, rfl, rfl⟩
  rw [hsend.not_legal (lifeNext_page s.life), rowOutOfOrder_programPage]

theorem lifeAfter_programPage (arg : Word) (buf : Buf) (s : State) :
    lifeAfter (.programPage arg buf) s = if pageOutOfOrder s then s.life else .programming := by
  have hsend : Sendable (.programPage arg buf) s := ⟨rfl, rfl, rfl⟩
  rw [hsend.lifeAfter_eq (lifeNext_page s.life), rowOutOfOrder_programPage]

/-- In the LH states the next atomic step of LOAD_HEX is the next step of the block. -/
theorem exec_loadHex_inFlight (arg : Word) {s : State} (hq : s.seq = .lhReset ∨ s.seq = .lhStream ∨ s.seq = .lhFlush) :
    exec (.loadHex arg) s = .next (nextState s) := by
  rcases hq with hq | hq | hq <;> simp only [exec, execLoadHex, nextState, hq]

section
variable (a : Answer) (rest : Supply Answer) (s : State)

/-- The pointer reset has returned. -/
def afterReset : State :=
  { s with
    seq := .lhStream
    txIn := rest
    stAcc := latched a s
    xfail := s.xfail || a.status != 0
    cfgPos := if a.status = 0 then true else s.cfgPos
    life := if a.status = 0 then addrLife s else s.life
    trace := s.trace ++ [.tx (request s) a.status (a.bytes.toList.take s.rn.toNat)] }

/-- The page transaction has returned. -/
def afterPage : State :=
  { s with
    seq := .lhStream
    txIn := rest
    stAcc := latched a s
    xfail := s.xfail || a.status != 0
    life := if a.status = 0 ∧ pageOutOfOrder s = false then .programming else s.life
    trace := s.trace ++ [.tx { w := (pb s).toList, wn := 20, rn := 0 } a.status []] }

end

section
variable {a : Answer} {rest : Supply Answer} {s : State} (hpop : s.txIn.pop freeAnswer = some (a, rest))
include hpop

theorem nextState_resetReturn (hq : s.seq = .lhReset) : nextState s = afterReset a rest s := by
  have hread : (request { s with txIn := rest }).rn = s.rn := by simp only [request, hq]
  rw [nextState_lhReset s hq, onReturn_some _ s a rest hpop, resetReturn, effectsIfOk_eq, lifeAfter_resetCfgAddr, recordReturn_eq, hread]
  simp only [flagEffects, ite_self]
  rfl

theorem nextState_pageReturn (hq : s.seq = .lhFlush) : nextState s = afterPage a rest s := by
  have hreq : request { s with txIn := rest } = { w := (pb s).toList, wn := 20, rn := 0 } := by simp only [request, hq]; rfl
  have hlife : (if a.status = 0 then if pageOutOfOrder s then s.life else .programming else s.life) =
      if a.status = 0 ∧ pageOutOfOrder s = false then .programming else s.life := by
    cases pageOutOfOrder s <;> simp
  rw [nextState_lhFlush s hq, onReturn_some _ s a rest hpop, flushReturn, effectsIfOk_eq, lifeAfter_programPage, recordReturn_eq, hreq,
    afterPage, ← hlife]
  simp only [flagEffects, ite_self]
  rfl

end

/-- Settles O27: the effects of RESET_CFG_ADDR, then the stream. -/
theorem loadHexPointerResetReturns : Obligations.LoadHexPointerResetReturns := by
  intro s arg a rest hq hpop
  rw [exec_loadHex_inFlight arg (.inl hq), nextState_resetReturn hpop hq, afterReset]

/-- Settles O32: the effects of PROGRAM_PAGE, then the stream. -/
theorem pageTransactionReturns : Obligations.PageTransactionReturns := by
  intro s arg a rest hq hpop
  rw [exec_loadHex_inFlight arg (.inr (.inr hq)), nextState_pageReturn hpop hq, afterPage]

/-! ### The tokens (R232 to R239) -/

/-- A conditional saturating count, with the two conditions in one. -/
theorem satInc_if {w : Nat} (b : Bool) (x : BitVec w) :
    (if b then satInc x else x) = if b && x != BitVec.allOnes w then x + 1 else x := by
  cases b
  · rfl
  · by_cases h : x = BitVec.allOnes w <;> simp [satInc, h]

/-- A dangling digit, if one is held, is reported and dropped (R239). -/
def digitDropped (s : State) : State :=
  { s with
    haveHi := false
    nOdd := if s.haveHi && s.nOdd != 0xFFFF then s.nOdd + 1 else s.nOdd
    trace := s.trace ++ (if s.haveHi then [.an .oddDigits] else []) }

theorem dropDigit_eq_digitDropped (s : State) : dropDigit s = digitDropped s := by
  rw [dropDigit_eq, satInc_if]
  rfl

/-- The second digit of a pair was taken: the byte is stored, and it is an overflow when it is the first one after a flush of its record (R233, R238).
`cnt` still counts the bytes before it. -/
def byteStored (v : BitVec 4) (rest : Supply Token) (s : State) : State :=
  { s with
    hsIn := rest
    haveHi := false
    trace := s.trace ++ (if s.recFull && !s.recOvf then [.an .overflow] else [])
    nOvf := if s.recFull && !s.recOvf && s.nOvf != 0xFFFF then s.nOvf + 1 else s.nOvf
    recOvf := s.recOvf || (s.recFull && !s.recOvf)
    pbPayload := s.pbPayload.setIfInBounds s.cnt.toNat (s.hiNib ++ v) }

/-- The sixteenth byte of a page makes its transaction pending (R234). -/
def pageFlushed (s : State) : State :=
  { s with
    cnt := 0
    seqViol := s.seqViol || pageOutOfOrder s
    pages := if s.pages = 0xFFFFFFFF then s.pages else s.pages + 1
    recFull := true
    seq := .lhFlush }

theorem secondDigit_eq (v : BitVec 4) (rest : Supply Token) (s : State) :
    secondDigit v { s with hsIn := rest } = flushIfFull { byteStored v rest s with cnt := s.cnt + 1 } := by
  have hovf : (s.recOvf || s.recFull) = (s.recOvf || (s.recFull && !s.recOvf)) := by cases s.recOvf <;> simp
  rw [secondDigit, noteOverflow_eq, satInc_if, hexByte_eq, hovf]
  rfl

theorem flush_eq_pageFlushed (s : State) : flush s = pageFlushed s := by
  rw [flush_eq, not_legal_programPage]
  rfl

section
variable {c : Byte} {v : BitVec 4} {rest : Supply Token} {s : State} (hq : s.seq = .lhStream)
include hq

section
variable (hpop : s.hsIn.pop freeToken = some (.char c, rest))
include hpop

theorem nextState_separator (hv : hexValue c = none) :
    nextState s = { digitDropped s with hsIn := rest, cnt := 0, recFull := false, recOvf := false } := by
  rw [nextState_lhStream s hq, onToken_some s _ rest hpop, token_separator c hv, separator, dropDigit_eq_digitDropped]
  rfl

variable (hv : hexValue c = some v)
include hv

theorem nextState_firstDigit (hhi : s.haveHi = false) : nextState s = { s with hsIn := rest, hiNib := v, haveHi := true } := by
  rw [nextState_lhStream s hq, onToken_some s _ rest hpop, token_digit c v hv, hexDigit, if_neg (by simp [hhi])]
  rfl

theorem nextState_secondDigit (hhi : s.haveHi = true) :
    nextState s = flushIfFull { byteStored v rest s with cnt := s.cnt + 1 } := by
  rw [nextState_lhStream s hq, onToken_some s _ rest hpop, token_digit c v hv, hexDigit, if_pos hhi, secondDigit_eq]

/-- A byte that does not fill the page. -/
theorem nextState_storeByte (hhi : s.haveHi = true) (hcnt : s.cnt ≠ 15) :
    nextState s = { byteStored v rest s with cnt := s.cnt + 1 } := by
  have hpart : s.cnt + 1 ≠ 16 := by bv_omega
  rw [nextState_secondDigit hq hpop hv hhi, flushIfFull, if_neg hpart]

/-- The byte that fills the page. -/
theorem nextState_fillPage (hhi : s.haveHi = true) (hcnt : s.cnt = 15) :
    nextState s = pageFlushed (byteStored v rest s) := by
  have hfull : s.cnt + 1 = 16 := by rw [hcnt]; rfl
  rw [nextState_secondDigit hq hpop hv hhi, flushIfFull, if_pos hfull, flush_eq_pageFlushed]
  rfl

end

theorem nextState_endOfStream (hpop : s.hsIn.pop freeToken = some (.eos, rest)) :
    nextState s = respond (loadResponse (digitDropped s)) { digitDropped s with hsIn := rest } := by
  rw [nextState_lhStream s hq, onToken_some s _ rest hpop, token, endOfStream, dropDigit_eq_digitDropped]
  rfl

end

/-- Settles O28: the step on a hex digit while none is held. -/
theorem firstDigitHeld : Obligations.FirstDigitHeld := by
  intro s arg c v rest hq hpop hv hhi
  rw [exec_loadHex_inFlight arg (.inr (.inl hq)), nextState_firstDigit hq hpop hv hhi]

/-- Settles O29: a byte that fills the page and one that does not. -/
theorem secondDigitStoresByte : Obligations.SecondDigitStoresByte := by
  intro s arg c v rest h hq hpop hv hhi
  have hstored := payload_setIfInBounds s.pbPayload s.cnt.toNat (s.hiNib ++ v) h
  rw [exec_loadHex_inFlight arg (.inr (.inl hq)), ← hstored]
  refine ⟨fun hcnt => ?_, fun hcnt => ?_⟩
  · rw [nextState_storeByte hq hpop hv hhi hcnt]
    rfl
  · rw [nextState_fillPage hq hpop hv hhi hcnt]
    rfl

/-- Settles O30: the step on a separator. -/
theorem separatorDiscards : Obligations.SeparatorDiscards := by
  intro s arg c rest hq hpop hv
  rw [exec_loadHex_inFlight arg (.inr (.inl hq)), nextState_separator hq hpop hv]
  rfl

/-- Settles O31: the step on EOS. -/
theorem endOfStreamReports : Obligations.EndOfStreamReports := by
  intro s arg rest hq hpop odd resp
  rw [exec_loadHex_inFlight arg (.inr (.inl hq)), nextState_endOfStream hq hpop, respond, ← List.append_assoc]
  rfl

end Sys2Proof.Machine

/-! PROOFS. The counting laws of spec/44_hex_loader.md R240 and R241. Where a record stands is a predicate of its bytes so far (`InRecord`), and
what a part of the stream adds to frames and counters is a relation that composes (`Adds`); a record is an induction over its pairs of digits,
a stream one over its records. -/

namespace Sys2Proof.Machine

/-! ### The pages of a record's bytes -/

/-- The bytes of a record that no full page holds yet. -/
def partialPage (bs : List Byte) : List Byte := bs.drop (16 * (bs.length / 16))

/-- 1 for a record that overflows: one of seventeen bytes or more (spec/44_hex_loader.md R238). -/
def overflows (bs : List Byte) : Nat := (decide (17 ≤ bs.length)).toNat

theorem pagesOf_length (bs : List Byte) : (pagesOf bs).length = bs.length / 16 := by simp [pagesOf]

/-- The full pages of `bs` are those of any list that goes on from it. -/
theorem pagesOf_append_prefix (bs more : List Byte) :
    (List.range (bs.length / 16)).map (fun j => ((bs ++ more).drop (16 * j)).take 16) = pagesOf bs := by
  refine List.map_congr_left fun j hj => ?_
  have hj : j < bs.length / 16 := List.mem_range.mp hj
  rw [List.drop_append_of_le_length (by omega), List.take_append_of_le_length (by rw [List.length_drop]; omega)]

section
variable {bs : List Byte} (b : Byte)

theorem pagesOf_concat_of_partial (h : bs.length % 16 ≠ 15) : pagesOf (bs ++ [b]) = pagesOf bs := by
  have hlen : (bs ++ [b]).length / 16 = bs.length / 16 := by simp only [List.length_append, List.length_singleton]; omega
  rw [pagesOf, hlen, pagesOf_append_prefix]

theorem partialPage_concat_of_partial (h : bs.length % 16 ≠ 15) : partialPage (bs ++ [b]) = partialPage bs ++ [b] := by
  have hlen : (bs ++ [b]).length / 16 = bs.length / 16 := by simp only [List.length_append, List.length_singleton]; omega
  rw [partialPage, hlen, List.drop_append_of_le_length (by omega), partialPage]

theorem pagesOf_concat_of_full (h : bs.length % 16 = 15) : pagesOf (bs ++ [b]) = pagesOf bs ++ [partialPage bs ++ [b]] := by
  have hlen : (bs ++ [b]).length / 16 = bs.length / 16 + 1 := by simp only [List.length_append, List.length_singleton]; omega
  have hlast : ((bs ++ [b]).drop (16 * (bs.length / 16))).take 16 = partialPage bs ++ [b] := by
    rw [List.drop_append_of_le_length (by omega)]
    exact List.take_of_length_le (by simp only [List.length_append, List.length_drop, List.length_singleton]; omega)
  rw [pagesOf, hlen, List.range_succ, List.map_append, pagesOf_append_prefix, List.map_singleton, hlast]

theorem partialPage_concat_of_full (h : bs.length % 16 = 15) : partialPage (bs ++ [b]) = [] :=
  List.drop_eq_nil_of_le (by simp only [List.length_append, List.length_singleton]; omega)

theorem overflows_concat : overflows (bs ++ [b]) = overflows bs + (decide (bs.length = 16)).toNat := by
  rw [overflows, overflows, List.length_append, List.length_singleton]
  by_cases h16 : bs.length = 16
  · simp [h16]
  · simp [h16, show 17 ≤ bs.length + 1 ↔ 17 ≤ bs.length by omega]

end

/-- Storing the next byte of a payload. -/
theorem payload_take_set (p : Payload) {k : Nat} (b : Byte) (h : k < 16) :
    (p.setIfInBounds k b).toList.take (k + 1) = p.toList.take k ++ [b] := by
  rw [payload_setIfInBounds p k b h, Vector.toList_set, List.take_add_one, List.take_set_of_le (Nat.le_refl k)]
  simp [h]

/-! ### Where a record stands, and what is added -/

/-- The block takes the tokens of a record whose bytes so far are `bs`; `held` says whether a first digit waits for its second. -/
structure InRecord (bs : List Byte) (held : Bool) (s : State) : Prop where
  seq      : s.seq = .lhStream
  noSample : s.rstIn = {}
  haveHi   : s.haveHi = held
  cnt      : s.cnt.toNat = bs.length % 16
  recFull  : s.recFull = decide (16 ≤ bs.length)
  recOvf   : s.recOvf = decide (17 ≤ bs.length)
  stored   : s.pbPayload.toList.take (bs.length % 16) = partialPage bs

/-- From `s` to `t` the frames of `pages` were sent and counted, and `odd` dangling digits and `ovf` overflows were counted. -/
structure Adds (pages : List (List Byte)) (odd ovf : Nat) (s t : State) : Prop where
  params : t.params = s.params
  frames : framesSent t = framesSent s ++ pages.map (pagePrefix s.params.ppOperand ++ ·)
  pages  : t.pages = satInc^[pages.length] s.pages
  nOdd   : t.nOdd = satInc^[odd] s.nOdd
  nOvf   : t.nOvf = satInc^[ovf] s.nOvf

theorem Adds.trans {ps ps' : List (List Byte)} {m m' n n' : Nat} {s t u : State} (h : Adds ps m n s t) (h' : Adds ps' m' n' t u) :
    Adds (ps ++ ps') (m + m') (n + n') s u where
  params := h'.params.trans h.params
  frames := by rw [h'.frames, h.frames, h.params, List.map_append, List.append_assoc]
  pages := by rw [h'.pages, h.pages, List.length_append, Nat.add_comm, Function.iterate_add_apply]
  nOdd := by rw [h'.nOdd, h.nOdd, Nat.add_comm, Function.iterate_add_apply]
  nOvf := by rw [h'.nOvf, h.nOvf, Nat.add_comm, Function.iterate_add_apply]

/-- `t` is in the record that `s` begins: its bytes so far are `bs`, and its pages and its overflow are what was added. -/
structure ReadRecord (s : State) (bs : List Byte) (held : Bool) (t : State) : Prop where
  inRecord : InRecord bs held t
  adds     : Adds (pagesOf bs) 0 (overflows bs) s t

theorem InRecord.readRecord {s : State} (h : InRecord [] false s) : ReadRecord s [] false s :=
  ⟨h, rfl, by simp [pagesOf], rfl, rfl, rfl⟩

/-! ### One token -/

theorem step_of_nextState {s t : State} (hr : s.rstIn = {}) (h : nextState s = t) : step s = .next t := by
  rw [step_of_no_sample hr, h]

/-- A conditional saturating count as an iteration. -/
theorem satInc_iterate_if {w : Nat} (b : Bool) (x : BitVec w) :
    (if b && x != BitVec.allOnes w then x + 1 else x) = satInc^[b.toNat] x := by
  rw [← satInc_if]
  cases b <;> rfl

/-- A digit that is still held where a record ends is counted. -/
theorem adds_digitDropped (s : State) : Adds [] s.haveHi.toNat 0 s (digitDropped s) where
  params := rfl
  frames := by
    rw [List.map_nil, List.append_nil]
    exact framesSent_append rfl (by split <;> rfl)
  pages := rfl
  nOdd := satInc_iterate_if s.haveHi s.nOdd
  nOvf := rfl

/-- A page that is flushed is sent and counted, whatever the transport answers. -/
theorem adds_page (a : Answer) (more : Supply Answer) (s : State) :
    Adds [s.pbPayload.toList] 0 0 s (afterPage a more (pageFlushed s)) where
  params := rfl
  frames := by
    rw [framesSent, afterPage, List.filterMap_append, framesSent]
    rfl
  pages := rfl
  nOdd := rfl
  nOvf := rfl

section
variable {s₀ s : State} {bs : List Byte} {held : Bool} {c : Byte} {v : BitVec 4} {rest : Supply Token}

/-- The first digit of a pair is held. -/
theorem ReadRecord.firstDigit (h : ReadRecord s₀ bs false s) (hpop : s.hsIn.pop freeToken = some (.char c, rest)) (hv : hexValue c = some v) :
    step s = .next { s with hsIn := rest, hiNib := v, haveHi := true } ∧
      ReadRecord s₀ bs true { s with hsIn := rest, hiNib := v, haveHi := true } := by
  obtain ⟨hin, hadds⟩ := h
  exact ⟨step_of_nextState hin.noSample (nextState_firstDigit hin.seq hpop hv hin.haveHi), { hin with haveHi := rfl }, { hadds with }⟩

/-- A separator ends the record: its pages, its overflow and its dangling digit are what was added. -/
theorem ReadRecord.separator (h : ReadRecord s₀ bs held s) (hpop : s.hsIn.pop freeToken = some (.char c, rest)) (hv : hexValue c = none) :
    ∃ t, step s = .next t ∧ InRecord [] false t ∧ Adds (pagesOf bs) held.toNat (overflows bs) s₀ t ∧ t.hsIn = rest ∧ t.txIn = s.txIn := by
  obtain ⟨hin, hadds⟩ := h
  have hall := hadds.trans (adds_digitDropped s)
  rw [List.append_nil, Nat.zero_add, hin.haveHi] at hall
  exact ⟨_, step_of_nextState hin.noSample (nextState_separator hin.seq hpop hv),
    ⟨hin.seq, hin.noSample, rfl, rfl, rfl, rfl, rfl⟩, { hall with }, rfl, rfl⟩

/-- The end of the stream ends the record, and the counts are reported. -/
theorem ReadRecord.endOfStream (h : ReadRecord s₀ bs held s) (hpop : s.hsIn.pop freeToken = some (.eos, rest)) :
    ∃ t, step s = .next t ∧ t.seq = .ready ∧ t.r = loadResponse t ∧ t.cnt.toNat = bs.length % 16 ∧
      Adds (pagesOf bs) held.toNat (overflows bs) s₀ t ∧ t.hsIn = rest ∧ t.txIn = s.txIn := by
  obtain ⟨hin, hadds⟩ := h
  have hall := hadds.trans (adds_digitDropped s)
  rw [List.append_nil, Nat.zero_add, hin.haveHi] at hall
  refine ⟨_, step_of_nextState hin.noSample (nextState_endOfStream hin.seq hpop), rfl, rfl, hin.cnt, { hall with frames := ?_ }, rfl, rfl⟩
  rw [silent_respond]
  exact hall.frames

section
variable (h : ReadRecord s₀ bs true s)
include h

theorem ReadRecord.overflow_iff : (s.recFull && !s.recOvf) = decide (bs.length = 16) := by
  rw [h.inRecord.recFull, h.inRecord.recOvf, Bool.eq_iff_iff]
  simp only [Bool.and_eq_true, Bool.not_eq_true', decide_eq_true_eq, decide_eq_false_iff_not]
  omega

/-- The seventeenth byte of a record is the one that adds an overflow. -/
theorem ReadRecord.adds_byteStored (b : Byte) : Adds (pagesOf bs) 0 (overflows (bs ++ [b])) s₀ (byteStored v rest s) := by
  have hstored : Adds [] 0 (s.recFull && !s.recOvf).toNat s (byteStored v rest s) :=
    ⟨rfl, by rw [List.map_nil, List.append_nil]; exact framesSent_append rfl (by split <;> rfl), rfl, rfl, satInc_iterate_if _ s.nOvf⟩
  have hall := h.adds.trans hstored
  rwa [h.overflow_iff, List.append_nil, ← overflows_concat] at hall

theorem ReadRecord.recOvf_byteStored (b : Byte) : (byteStored v rest s).recOvf = decide (17 ≤ (bs ++ [b]).length) := by
  have hnow : (byteStored v rest s).recOvf = (s.recOvf || (s.recFull && !s.recOvf)) := rfl
  rw [hnow, h.overflow_iff, h.inRecord.recOvf, ← Bool.decide_or, decide_eq_decide, List.length_append, List.length_singleton]
  omega

/-- The byte is behind those of the page that are there. -/
theorem ReadRecord.payload_byteStored :
    (byteStored v rest s).pbPayload.toList.take (bs.length % 16 + 1) = partialPage bs ++ [s.hiNib ++ v] := by
  rw [← h.inRecord.stored, ← h.inRecord.cnt]
  exact payload_take_set s.pbPayload (s.hiNib ++ v) (by rw [h.inRecord.cnt]; omega)

variable (hpop : s.hsIn.pop freeToken = some (.char c, rest)) (hv : hexValue c = some v)
include hpop hv

/-- A byte that leaves the page short of its sixteenth. -/
theorem ReadRecord.storeByte (hpart : bs.length % 16 ≠ 15) :
    ∃ t, step s = .next t ∧ ReadRecord s₀ (bs ++ [s.hiNib ++ v]) false t ∧ t.hsIn = rest ∧ t.txIn = s.txIn := by
  have hovf := h.recOvf_byteStored (v := v) (rest := rest) (s.hiNib ++ v)
  have hpayload := h.payload_byteStored (v := v) (rest := rest)
  have hall := h.adds_byteStored (v := v) (rest := rest) (s.hiNib ++ v)
  obtain ⟨hin, -⟩ := h
  have hlen : (bs ++ [s.hiNib ++ v]).length = bs.length + 1 := List.length_append
  have hmod : (bs.length + 1) % 16 = bs.length % 16 + 1 := by omega
  have hlt : s.cnt.toNat < 15 := by rw [hin.cnt]; omega
  have hcnt : (s.cnt + 1).toNat = s.cnt.toNat + 1 := by bv_omega
  have hstep := step_of_nextState hin.noSample (nextState_storeByte hin.seq hpop hv hin.haveHi (by bv_omega))
  refine ⟨_, hstep, ⟨⟨hin.seq, hin.noSample, rfl, ?_, ?_, hovf, ?_⟩, ?_⟩, rfl, rfl⟩
  · rw [hlen, hmod, ← hin.cnt]
    exact hcnt
  · rw [hlen, show decide (16 ≤ bs.length + 1) = decide (16 ≤ bs.length) from decide_eq_decide.mpr (by omega)]
    exact hin.recFull
  · rw [hlen, hmod, partialPage_concat_of_partial _ hpart]
    exact hpayload
  · rw [← pagesOf_concat_of_partial (s.hiNib ++ v) hpart] at hall
    exact { hall with }

/-- The byte that fills its page, and the return of the page transaction. -/
theorem ReadRecord.fillPage {a : Answer} {more : Supply Answer} (hfull : bs.length % 16 = 15) (hans : s.txIn.pop freeAnswer = some (a, more)) :
    ∃ t, stepsTo 2 s = some t ∧ ReadRecord s₀ (bs ++ [s.hiNib ++ v]) false t ∧ t.hsIn = rest ∧ t.txIn = more := by
  have hovf := h.recOvf_byteStored (v := v) (rest := rest) (s.hiNib ++ v)
  have hpayload := h.payload_byteStored (v := v) (rest := rest)
  have hall := h.adds_byteStored (v := v) (rest := rest) (s.hiNib ++ v)
  obtain ⟨hin, -⟩ := h
  have hlen : (bs ++ [s.hiNib ++ v]).length = bs.length + 1 := List.length_append
  have hmod : (bs.length + 1) % 16 = 0 := by omega
  have hcnt : s.cnt = 15 := BitVec.eq_of_toNat_eq (hin.cnt.trans hfull)
  have hstep := step_of_nextState hin.noSample (nextState_fillPage hin.seq hpop hv hin.haveHi hcnt)
  have hreturn := step_of_nextState (s := pageFlushed (byteStored v rest s)) hin.noSample (nextState_pageReturn hans rfl)
  refine ⟨_, (stepsTo_of_step hstep 1).trans (stepsTo_of_step hreturn 0), ⟨⟨rfl, hin.noSample, rfl, ?_, ?_, hovf, ?_⟩, ?_⟩, rfl, rfl⟩
  · rw [hlen, hmod]
    rfl
  · rw [hlen, decide_eq_true (by omega)]
    rfl
  · rw [hlen, hmod, partialPage_concat_of_full _ hfull, List.take_zero]
  · have hpage : (byteStored v rest s).pbPayload.toList = partialPage bs ++ [s.hiNib ++ v] := by
      rw [← hpayload, List.take_of_length_le (by rw [Vector.length_toList]; omega)]
    have hsent := hall.trans (adds_page a more (byteStored v rest s))
    rwa [hpage, ← pagesOf_concat_of_full _ hfull] at hsent

end

end

/-! ### A record -/

theorem recordBytes_singleton (c : Byte) : recordBytes [c] = [] := by
  cases hv : hexValue c <;> simp [recordBytes, pairDigits, hv]

theorem recordBytes_pair {c d : Byte} {v w : BitVec 4} (hv : hexValue c = some v) (hw : hexValue d = some w) (cs : List Byte) :
    recordBytes (c :: d :: cs) = (v ++ w) :: recordBytes cs := by
  rw [recordBytes, List.filterMap_cons_some hv, List.filterMap_cons_some hw, pairDigits, recordBytes]

section
variable {s₀ s : State} {bs : List Byte} {rest : Supply Token} {answers : List Answer} {more : Supply Answer}

/-- Two digits are one byte; where it fills its page they take an answer of the transport. -/
theorem ReadRecord.pair {c d : Byte} {v w : BitVec 4} (h : ReadRecord s₀ bs false s) (hv : hexValue c = some v) (hw : hexValue d = some w)
    (hs : s.hsIn.Gives freeToken [.char c, .char d] rest) (ht : s.txIn.Gives freeAnswer answers more)
    (hlen : answers.length + bs.length / 16 = (bs.length + 1) / 16) :
    ∃ t, stepsTo (2 + answers.length) s = some t ∧ ReadRecord s₀ (bs ++ [v ++ w]) false t ∧ t.hsIn = rest ∧ t.txIn = more := by
  obtain ⟨q, hc, q', hd, rfl⟩ := hs
  obtain ⟨hfirst, hheld⟩ := h.firstDigit hc hv
  by_cases hfull : bs.length % 16 = 15
  · obtain ⟨a, rfl⟩ := List.length_eq_one_iff.mp (show answers.length = 1 by omega)
    obtain ⟨p, hans, rfl⟩ := ht
    obtain ⟨t, hrun, ht⟩ := hheld.fillPage hd hw hfull hans
    exact ⟨t, (stepsTo_of_step hfirst 2).trans hrun, ht⟩
  · obtain rfl := List.length_eq_zero_iff.mp (show answers.length = 0 by omega)
    obtain rfl : s.txIn = more := ht
    obtain ⟨t, hstep, ht⟩ := hheld.storeByte hd hw hfull
    exact ⟨t, (stepsTo_of_step hfirst 1).trans (stepsTo_of_step hstep 0), ht⟩

/-- The characters of a record, pair by pair; one that is left over is held. -/
theorem ReadRecord.chars {cs : List Byte} (h : ReadRecord s₀ bs false s) (hdigits : ∀ c ∈ cs, hexValue c ≠ none)
    (hs : s.hsIn.Gives freeToken (cs.map .char) rest) (ht : s.txIn.Gives freeAnswer answers more)
    (hlen : answers.length + bs.length / 16 = (bs ++ recordBytes cs).length / 16) :
    ∃ t, stepsTo (cs.length + answers.length) s = some t ∧ ReadRecord s₀ (bs ++ recordBytes cs) (cs.length % 2 == 1) t ∧
      t.hsIn = rest ∧ t.txIn = more := by
  induction cs using List.twoStepInduction generalizing s bs answers with
  | nil =>
    have hnone : recordBytes [] = [] := rfl
    rw [hnone, List.append_nil] at hlen ⊢
    obtain rfl := List.length_eq_zero_iff.mp (show answers.length = 0 by omega)
    exact ⟨s, rfl, h, hs, ht⟩
  | singleton c =>
    rw [recordBytes_singleton, List.append_nil] at hlen ⊢
    obtain rfl := List.length_eq_zero_iff.mp (show answers.length = 0 by omega)
    obtain ⟨q, hc, rfl⟩ := hs
    obtain ⟨v, hv⟩ := Option.ne_none_iff_exists'.mp (hdigits c List.mem_cons_self)
    obtain ⟨hfirst, hheld⟩ := h.firstDigit hc hv
    exact ⟨_, stepsTo_of_step hfirst 0, hheld, rfl, ht⟩
  | cons_cons c d cs ih _ =>
    obtain ⟨v, hv⟩ := Option.ne_none_iff_exists'.mp (hdigits c (by simp))
    obtain ⟨w, hw⟩ := Option.ne_none_iff_exists'.mp (hdigits d (by simp))
    rw [recordBytes_pair hv hw, List.append_cons] at hlen ⊢
    simp only [List.length_append, List.length_singleton] at hlen
    obtain ⟨q, hpair, hs'⟩ := (Supply.gives_append freeToken s.hsIn rest [.char c, .char d] (cs.map .char)).mp hs
    rw [← List.take_append_drop ((bs.length + 1) / 16 - bs.length / 16) answers] at ht
    obtain ⟨p, hans, ht'⟩ := (Supply.gives_append ..).mp ht
    obtain ⟨t, hrun, ht, rfl, rfl⟩ := h.pair hv hw hpair hans (by rw [List.length_take]; omega)
    obtain ⟨u, hrun', hu⟩ := ih ht (fun e he => hdigits e (by simp [he])) hs' ht'
      (by simp only [List.length_append, List.length_singleton, List.length_drop]; omega)
    refine ⟨u, ?_, ?_⟩
    · rw [← stepsTo_trans hrun hrun', List.length_take, List.length_drop, List.length_cons, List.length_cons]
      congr 1
      omega
    · rwa [List.length_cons, List.length_cons, Nat.add_assoc, Nat.add_mod_right]

/-- A record from its beginning. -/
theorem InRecord.record {cs : List Byte} (h : InRecord [] false s) (hdigits : ∀ c ∈ cs, hexValue c ≠ none)
    (hs : s.hsIn.Gives freeToken (cs.map .char) rest) (ht : s.txIn.Gives freeAnswer answers more)
    (hlen : answers.length = (recordBytes cs).length / 16) :
    ∃ t, stepsTo (cs.length + answers.length) s = some t ∧ ReadRecord s (recordBytes cs) (cs.length % 2 == 1) t ∧
      t.hsIn = rest ∧ t.txIn = more :=
  h.readRecord.chars hdigits hs ht hlen

end

/-! ### A stream -/

/-- The loader has responded with the counts that it holds, from a state in which `left` bytes were not sent; since `s` it has added what
`records` hold (spec/44_hex_loader.md R237, R241). -/
structure Reported (records : List (List Byte)) (s t : State) : Prop where
  ready    : t.seq = .ready
  response : t.r = loadResponse t
  left     : t.cnt.toNat = (((records.map recordBytes).getLast?).getD []).length % 16
  adds     : Adds ((records.map recordBytes).flatMap pagesOf) (records.countP fun r => r.length % 2 == 1)
    ((records.map recordBytes).countP fun b => 17 ≤ b.length) s t

theorem countP_cons_toNat {α : Type} (p : α → Bool) (x : α) (xs : List α) : (x :: xs).countP p = (p x).toNat + xs.countP p := by
  cases h : p x <;> simp [h, Nat.add_comm]

/-- A record and the records behind it. -/
theorem Reported.cons {r next : List Byte} {records : List (List Byte)} {s t u : State}
    (h : Adds (pagesOf (recordBytes r)) (r.length % 2 == 1).toNat (overflows (recordBytes r)) s t) (h' : Reported (next :: records) t u) :
    Reported (r :: next :: records) s u where
  ready := h'.ready
  response := h'.response
  left := by simpa only [List.map_cons, List.getLast?_cons_cons] using h'.left
  adds := by
    rw [countP_cons_toNat _ r, List.map_cons, countP_cons_toNat _ (recordBytes r), List.flatMap_cons]
    exact h.trans h'.adds

/-- A stream runs to its response, record by record. -/
theorem InRecord.stream {first : List Byte} {later : List (Byte × List Byte)} {s : State} {rest : Supply Token} {answers : List Answer}
    {more : Supply Answer} (h : InRecord [] false s) (hdigits : ∀ r ∈ first :: later.map Prod.snd, ∀ c ∈ r, hexValue c ≠ none)
    (hseps : ∀ p ∈ later, hexValue p.1 = none) (hs : s.hsIn.Gives freeToken (streamOf first later ++ [.eos]) rest)
    (ht : s.txIn.Gives freeAnswer answers more)
    (hlen : answers.length = (((first :: later.map Prod.snd).map recordBytes).map fun b => b.length / 16).sum) :
    ∃ t, stepsTo ((streamOf first later).length + answers.length + 1) s = some t ∧ Reported (first :: later.map Prod.snd) s t ∧
      t.hsIn = rest ∧ t.txIn = more := by
  induction later generalizing first s answers with
  | nil =>
    obtain ⟨q, hchars, q', heos, rfl⟩ := (Supply.gives_append ..).mp hs
    obtain ⟨t, hrun, hread, rfl, rfl⟩ := h.record (hdigits first List.mem_cons_self) hchars ht (by simpa using hlen)
    obtain ⟨u, hstep, hready, hresp, hleft, hadds, hu⟩ := hread.endOfStream heos
    refine ⟨u, ?_, ⟨hready, hresp, hleft, ?_⟩, hu⟩
    · rw [streamOf, List.length_map]
      exact stepsTo_trans hrun (stepsTo_of_step hstep 0)
    · simpa [countP_cons_toNat, overflows] using hadds
  | cons p later ih =>
    obtain ⟨sep, next⟩ := p
    rw [streamOf, List.append_assoc] at hs
    obtain ⟨q, hchars, q', hsep, hs'⟩ := (Supply.gives_append ..).mp hs
    rw [List.map_cons, List.map_cons, List.map_cons, List.sum_cons] at hlen
    rw [← List.take_append_drop ((recordBytes first).length / 16) answers] at ht
    obtain ⟨p, hans, ht'⟩ := (Supply.gives_append ..).mp ht
    obtain ⟨t, hrun, hread, rfl, rfl⟩ := h.record (hdigits first List.mem_cons_self) hchars hans (by rw [List.length_take]; omega)
    obtain ⟨u, hstep, hin, hadds, rfl, htx⟩ := hread.separator hsep (hseps (sep, next) List.mem_cons_self)
    obtain ⟨w, hrun', hrep, hw⟩ := ih hin (fun r hr => hdigits r (List.mem_cons_of_mem first hr))
      (fun p hp => hseps p (List.mem_cons_of_mem _ hp)) hs' (htx ▸ ht') (by rw [List.length_drop]; exact Nat.sub_eq_of_eq_add' hlen)
    refine ⟨w, ?_, .cons hadds hrep, hw⟩
    rw [← stepsTo_trans hrun ((stepsTo_of_step hstep _).trans hrun'), streamOf]
    simp only [List.length_append, List.length_map, List.length_cons, List.length_take, List.length_drop]
    congr 1
    omega

/-- The number of pages that some records fill. -/
theorem flatMap_pagesOf_length (decoded : List (List Byte)) : (decoded.flatMap pagesOf).length = (decoded.map fun b => b.length / 16).sum := by
  simp only [List.length_flatMap, pagesOf_length]

/-- A counter that saturates. -/
theorem satInc_iterate_zero_toNat {w : Nat} (n : Nat) : (satInc^[n] (0 : BitVec w)).toNat = min n (2 ^ w - 1) := by
  induction n with
  | zero => simp
  | succ n ih =>
    rw [Function.iterate_succ_apply']
    by_cases hlt : n < 2 ^ w - 1
    · rw [satInc_toNat _ (by omega), ih]
      omega
    · have hfull : satInc^[n] (0 : BitVec w) = BitVec.allOnes w := BitVec.eq_of_toNat_eq (by rw [ih, BitVec.toNat_allOnes]; omega)
      rw [hfull, satInc_allOnes, BitVec.toNat_allOnes]
      omega

/-- The loader's registers at the first token of a stream. -/
theorem InRecord.of_cleared {s : State} (hq : s.seq = .lhStream) (hr : s.rstIn = {}) (hcnt : s.cnt = 0) (hhi : s.haveHi = false)
    (hfull : s.recFull = false) (hovf : s.recOvf = false) : InRecord [] false s :=
  ⟨hq, hr, hhi, by rw [hcnt]; rfl, hfull, hovf, rfl⟩

/-- Settles O34: the run of the stream, and its counters from 0. -/
theorem recordCountingLaws : Obligations.RecordCountingLaws := by
  intro s first later rest answers more records decoded hq hr hcnt hhi hfull hovf hpages hodd hnovf hdigits hseps hs ht hlen
  have hstart : InRecord [] false s := .of_cleared hq hr hcnt hhi hfull hovf
  obtain ⟨t, hrun, ⟨hready, hresp, hleft, hadds⟩, hin, htx⟩ := hstart.stream hdigits hseps hs ht hlen
  refine ⟨t, hrun, hready, ?_⟩
  rw [hresp]
  refine ⟨rfl, rfl, hadds.frames, ?_, hleft, ?_, ?_, hin, htx⟩
  · rw [loadResponse, hadds.pages, hpages, satInc_iterate_zero_toNat, flatMap_pagesOf_length, hlen]
  · rw [loadResponse, hadds.nOdd, hodd, satInc_iterate_zero_toNat]
  · rw [loadResponse, hadds.nOvf, hnovf, satInc_iterate_zero_toNat]

/-! ### A stream of bytes -/

/-- The two characters of each byte. -/
def hexDigits (bs : List Byte) : List Byte := bs.flatMap fun b => [hexChar (b.extractLsb' 4 4), hexChar (b.extractLsb' 0 4)]

theorem hexChars_eq_map (bs : List Byte) : hexChars bs = (hexDigits bs).map .char := by
  induction bs with
  | nil => rfl
  | cons b bs ih => rw [hexChars, ih]; rfl

theorem hexDigits_length (bs : List Byte) : (hexDigits bs).length = 2 * bs.length := by
  simp [hexDigits, List.length_flatMap, Nat.mul_comm]

theorem hexValue_hexChar (n : BitVec 4) : hexValue (hexChar n) = some n := by
  revert n
  decide

theorem nibbles_append (b : Byte) : b.extractLsb' 4 4 ++ b.extractLsb' 0 4 = b :=
  (BitVec.extractLsb'_append_extractLsb'_eq_extractLsb' (x := b) rfl).trans BitVec.extractLsb'_eq_self

theorem hexDigits_are_digits (bs : List Byte) : ∀ c ∈ hexDigits bs, hexValue c ≠ none := by
  intro c hc
  obtain ⟨b, -, hb⟩ := List.mem_flatMap.mp hc
  rcases List.mem_pair.mp hb with rfl | rfl <;> simp [hexValue_hexChar]

theorem recordBytes_hexDigits (bs : List Byte) : recordBytes (hexDigits bs) = bs := by
  induction bs with
  | nil => rfl
  | cons b bs ih =>
    have hcons : hexDigits (b :: bs) = hexChar (b.extractLsb' 4 4) :: hexChar (b.extractLsb' 0 4) :: hexDigits bs := rfl
    rw [hcons, recordBytes_pair (hexValue_hexChar _) (hexValue_hexChar _), ih, nibbles_append]

/-- Settles O33: the stream is one record of two characters a byte. -/
theorem streamOfBytesBecomesPages : Obligations.StreamOfBytesBecomesPages := by
  intro s bs k m rest answers more hq hr hcnt hhi hfull hovf hpages hk hm hbs hs ht hlen
  have hstart : InRecord [] false s := .of_cleared hq hr hcnt hhi hfull hovf
  have hdiv : bs.length / 16 = k := by omega
  have hdigits : ∀ r ∈ [hexDigits bs], ∀ c ∈ r, hexValue c ≠ none := by simpa using hexDigits_are_digits bs
  rw [hexChars_eq_map] at hs
  obtain ⟨t, hrun, ⟨hready, hresp, hleft, hadds⟩, hin, htx⟩ :=
    hstart.stream (later := []) hdigits (by simp) hs ht (by simp [recordBytes_hexDigits, hdiv, hlen])
  rw [streamOf, List.length_map, hexDigits_length, hlen] at hrun
  have hleft : t.cnt.toNat = bs.length % 16 := by simpa [recordBytes_hexDigits] using hleft
  have hadds : Adds (pagesOf bs) 0 (overflows bs) s t := by
    simpa [countP_cons_toNat, recordBytes_hexDigits, hexDigits_length, overflows] using hadds
  refine ⟨t, hrun, hready, ?_⟩
  rw [hresp]
  refine ⟨rfl, rfl, ?_, ?_, ?_, hadds.nOdd, ?_, hin, htx⟩
  · rw [hadds.frames, pagesOf, hdiv, List.map_map]
    rfl
  · rw [loadResponse, hadds.pages, hpages, satInc_iterate_zero_toNat, pagesOf_length, hdiv]
    omega
  · rw [loadResponse, hleft]
    omega
  · rw [loadResponse, hadds.nOvf, overflows]
    by_cases h17 : 17 ≤ bs.length <;> simp [h17]

end Sys2Proof.Machine

/-! PROOFS. The exceptions of spec/60_exceptions.md: nothing stops the block (R260), the refusals ILLEGAL_OP (R262) and RANGE (R263), and the
hangs (R268). -/

namespace Sys2Proof.Machine

/-! ### Progress -/

/-- Settles O45: every operation and every step has its next state. -/
theorem nothingStopsTheBlock : Obligations.NothingStopsTheBlock :=
  ⟨fun i s => ⟨execNext i s, exec_eq_next i s⟩, fun s => ⟨_, step_eq s⟩⟩

/-! ### Reserved codes -/

/-- What decodes has a code up to 22, so a reserved code does not decode (spec/30_encoding.md R101). -/
theorem decode_of_reserved {c : Cmd} (h : 23 ≤ c.op.toNat) : ∃ e, decode c = .error e := by
  cases hd : decode c with
  | error e => exact ⟨e, rfl⟩
  | ok i =>
    obtain ⟨hop, -⟩ := decode_selects c i hd
    obtain ⟨hle, -⟩ := Laws.frameForm_all i
    rw [hop] at h
    omega

/-- Settles O19: a reserved code does not decode, and the refusal keeps READY. -/
theorem reservedOpRefused : Obligations.ReservedOpRefused := by
  intro s c rest hr hq hpop hop
  obtain ⟨e, hd⟩ := decode_of_reserved hop
  rw [step_of_no_rst s hr, stepBlock_eq, nextState_illegal (useRstSample s) c rest e hq hpop hd, refuse, respond, ← hq]
  rfl

/-! ### The range refusal -/

/-- A response of RANGE in `t` is the one that stood in `s`. -/
def NoNewRange (s t : State) : Prop := t.r.err = .range → t.r = s.r

theorem NoNewRange.of_same {s t : State} (h : t.r = s.r) : NoNewRange s t := fun _ => h

theorem NoNewRange.of_respond {s t : State} {resp : Response} (h : resp.err ≠ .range) : NoNewRange s (respond resp t) :=
  fun hrange => absurd hrange h

/-! The accept step under TRUNCATE. -/

theorem startOf_r (i : Instr) (s : State) : (startOf i s).r = s.r := by
  rcases wire_or_composite i with hw | ⟨arg, rfl⟩ | ⟨arg, rfl⟩
  · rw [startOf_wire i hw]; rfl
  · rfl
  · rw [startOf, startLoad_eq]; rfl

theorem noNewRange_accept (i : Instr) {s : State} (h : s.params.pageOor = .truncate) : NoNewRange s (accept i (startOf i) s) := by
  rw [accept, rangeRefused_eq_false (.inr h), if_neg Bool.false_ne_true, acceptOrdered_eq]
  split
  · exact .of_respond nofun
  · exact .of_same (startOf_r i _)

/-! The returns. -/

theorem recordReturn_r (a : Answer) (s : State) : (recordReturn a s).r = s.r := by rw [recordReturn_eq]

theorem effectsIfOk_r (i : Instr) (a : Answer) (s : State) : (effectsIfOk i a s).r = s.r := by rw [effectsIfOk_eq]

theorem noNewRange_onReturn {k : Answer → State → State} (hk : ∀ a s, NoNewRange s (k a s)) (s : State) : NoNewRange s (onReturn k s) := by
  rcases onReturn_cases k s with hn | ⟨a, rest, -, hn⟩ <;> rw [hn]
  · exact .of_same rfl
  · have hreturn := hk a (recordReturn a { s with txIn := rest })
    rwa [NoNewRange, recordReturn_r] at hreturn

theorem noNewRange_xactReturn (i : Instr) (a : Answer) (s : State) : NoNewRange s (xactReturn i a s) := .of_respond nofun

theorem noNewRange_resetReturn (a : Answer) (s : State) : NoNewRange s (resetReturn a s) :=
  .of_same (effectsIfOk_r (.resetCfgAddr 0) a s)

theorem noNewRange_flushReturn (a : Answer) (s : State) : NoNewRange s (flushReturn a s) :=
  .of_same (effectsIfOk_r (.programPage 0 (pb s)) a s)

theorem noNewRange_pollReturn (a : Answer) (s : State) : NoNewRange s (pollReturn a s) := by
  unfold pollReturn
  split
  · unfold busyPoll
    split
    · exact .of_respond nofun
    · exact .of_same rfl
  · exact .of_respond nofun

/-! The tokens. -/

theorem noteOverflow_r (s : State) : (noteOverflow s).r = s.r := by rw [noteOverflow_eq]

theorem flushIfFull_r (s : State) : (flushIfFull s).r = s.r := by
  unfold flushIfFull
  split
  · rw [flush_eq]
  · rfl

theorem hexDigit_r (d : BitVec 4) (s : State) : (hexDigit d s).r = s.r := by
  unfold hexDigit
  split
  · rw [secondDigit, flushIfFull_r, putByte_r, noteOverflow_r]
  · rfl

theorem noNewRange_token (t : Token) (s : State) : NoNewRange s (token t s) := by
  cases t with
  | eos => exact .of_respond nofun
  | char c =>
    cases hv : hexValue c with
    | some d => rw [token_digit c d hv]; exact .of_same (hexDigit_r d s)
    | none => rw [token_separator c hv, separator, dropDigit_eq]; exact .of_same rfl

/-! The step. -/

theorem noNewRange_nextState {s : State} (h : s.params.pageOor = .truncate) : NoNewRange s (nextState s) := by
  rcases nextState_cases s with ⟨-, hn⟩ | ⟨c, rest, i, -, -, -, hn⟩ | ⟨c, rest, e, -, -, -, hn⟩ | ⟨i, -, -, -, hn⟩ | ⟨-, hn⟩ | ⟨-, hn⟩ |
    ⟨-, hn⟩ | ⟨-, hn⟩ <;> rw [hn]
  · exact .of_same rfl
  · exact noNewRange_accept i (s := { s with cmdIn := rest }) h
  · exact .of_respond nofun
  · exact noNewRange_onReturn (noNewRange_xactReturn i) s
  · exact noNewRange_onReturn noNewRange_pollReturn s
  · exact noNewRange_onReturn noNewRange_resetReturn s
  · rcases onToken_cases s with hwait | ⟨t, rest, htoken⟩
    · rw [hwait]; exact .of_same rfl
    · rw [htoken]; exact noNewRange_token t { s with hsIn := rest }
  · exact noNewRange_onReturn noNewRange_flushReturn s

/-- Settles O18: the range check of both set-address operations; under TRUNCATE no part of a step answers RANGE. -/
theorem pageOutOfRangeRefused : Obligations.PageOutOfRangeRefused := by
  refine ⟨fun s page hq hpage hoor => ?_, fun s t hoor hstep => ?_⟩
  · have hfits : decide (page.toNat < 0x10000) = false := decide_eq_false (Nat.not_lt.mpr hpage)
    exact ⟨exec_range_refused (i := .setCfgAddr page) hq hfits hoor, exec_range_refused (i := .setUfmAddr page) hq hfits hoor⟩
  · rw [step_eq, Host.Outcome.next.injEq] at hstep
    rw [← hstep]
    split
    · exact nofun
    · exact noNewRange_nextState (s := useRstSample s) hoor

/-! ### The hangs -/

/-- A state that its own step leaves as it is stays for ever. -/
theorem stepsTo_of_fixed {s : State} (h : step s = .next s) (n : Nat) : stepsTo n s = some s := by
  induction n with
  | zero => rfl
  | succ n ih => rw [stepsTo_of_step h, ih]

/-- While a transaction is pending and the transport presents nothing, the block waits (spec/40_sequencer.md R141). -/
theorem nextState_unanswered {s : State} (hp : txPending s.seq = true) (hnone : s.txIn.pop freeAnswer = none) : nextState s = s := by
  rcases nextState_cases s with ⟨-, hn⟩ | ⟨_, _, _, hq, -⟩ | ⟨_, _, _, hq, -⟩ | ⟨i, -, -, -, hn⟩ | ⟨-, hn⟩ | ⟨-, hn⟩ | ⟨hq, -⟩ |
    ⟨-, hn⟩
  · exact hn
  · simp [hq, txPending] at hp
  · simp [hq, txPending] at hp
  · exact hn.trans (onReturn_none _ s hnone)
  · exact hn.trans (onReturn_none _ s hnone)
  · exact hn.trans (onReturn_none _ s hnone)
  · simp [hq, txPending] at hp
  · exact hn.trans (onReturn_none _ s hnone)

/-- `stuckBusy` after its accept step: WAIT_BUSY polls a device that is busy for ever. -/
def stuckPolling : State := waitTaken (encode (.waitBusy 0)) {} stuckBusy

theorem inv_stuckPolling : Inv stuckPolling :=
  have hstart : Inv stuckBusy := resetSatisfiesInv
  stepKeepsInv stuckBusy stuckPolling hstart stuckBusy_takesWaitBusy.step_accept

theorem stuckPolling_stepsTo (n : Nat) :
    stepsTo n stuckPolling = some (afterBusyPolls (List.replicate n stuckAnswer) stuckBusy.txIn stuckPolling) :=
  (stepsTo_of_step stuckBusy_takesWaitBusy.step_accept n).symm.trans (stuckBusy_stepsTo n)

/-- LOAD_HEX in a stream of line feeds that never ends. -/
def endlessStream : State :=
  { State.reset with seq := .lhStream, curOp := 22, hsIn := { later := .again (.char 0x0A) [] } }

theorem inv_endlessStream : Inv endlessStream :=
  ⟨by decide, by decide, by decide, rfl, by simp [endlessStream, State.reset]⟩

/-- Each line feed is taken as a separator; an empty record leaves no mark, and the next line feed comes. -/
theorem step_endlessStream : step endlessStream = .next endlessStream := by
  have hpop : endlessStream.hsIn.pop freeToken = some (.char 0x0A, endlessStream.hsIn) := rfl
  rw [step_of_no_sample rfl, nextState_separator rfl hpop (by decide)]
  rfl

/-- Settles O36: the device that is stuck busy, the transport that is silent, and the stream that never ends. -/
theorem hangsAreRuns : Obligations.HangsAreRuns := by
  refine ⟨⟨stuckPolling, inv_stuckPolling, rfl, rfl, fun n => ⟨_, stuckPolling_stepsTo n, rfl, rfl, ?_⟩⟩, fun s hr hp hsilent n => ?_,
    ⟨endlessStream, inv_endlessStream, rfl, fun n => ⟨_, stepsTo_of_fixed step_endlessStream n, rfl, rfl, nofun⟩⟩⟩
  · rw [framesSent_afterBusyPolls, List.length_append, List.length_replicate, List.length_replicate]
  · have hnone : s.txIn.pop freeAnswer = none := (Supply.pop_eq_none freeAnswer s.txIn).mpr hsilent
    have hwait : step s = .next s := by rw [step_of_no_sample hr, nextState_unanswered hp hnone]
    exact stepsTo_of_fixed hwait n

end Sys2Proof.Machine

/-! PROOFS. The reset of spec/70_reset_and_hazards.md R300 to R302, and the bits that it and a frame leave unspecified. What a step does to the
registers that hold them is one of two things: it does not touch them (`Bufferless`), or it is an accept or a token, which has its own lemma. -/

namespace Sys2Proof.Machine

/-! ### The RST event (R300, R302) -/

theorem step_of_rst {s : State} (h : rstNow s = true) : step s = .next (rst (useRstSample s)) := by
  rw [step_eq, h, if_pos rfl]

/-- Settles O41: the event does not look at `seq`, and the sample of RST is used up. -/
theorem rstEvent : Obligations.RstEvent := by
  intro s later hpop
  have hnow : rstNow s = true := by rw [rstNow, hpop]
  have hlater : s.rstIn.rest Config.freeRst = later := Supply.rest_of_pop Config.freeRst hpop
  exact ⟨_, _, _, _, _, by rw [step_of_rst hnow, rst, useRstSample, hlater]⟩

theorem rst_txIn (s : State) : (rst s).txIn = if txPending s.seq then s.txIn.rest freeAnswer else s.txIn := rfl

/-- Settles O42: the event keeps the commands and the tokens, and drops one answer when a transaction is pending. -/
theorem rstDropsTheAbandonedAnswer : Obligations.RstDropsTheAbandonedAnswer := by
  intro s h
  refine ⟨_, step_of_rst h, rfl, rfl, rfl, fun hpending => ?_, fun hidle => ?_⟩
  · exact (rst_txIn (useRstSample s)).trans (if_pos hpending)
  · exact (rst_txIn (useRstSample s)).trans (if_neg (by rw [useRstSample_seq, hidle]; exact Bool.false_ne_true))

/-! ### The registers that hold unspecified bits (R301) -/

/-- `s` with other values in `fb`, `pb[4..19]` and `hi_nib`. -/
def State.refill (fb : Buf) (p : Payload) (n : BitVec 4) (s : State) : State := { s with fb := fb, pbPayload := p, hiNib := n }

theorem AgreeOnSpecified.refl (s : State) : AgreeOnSpecified s s := ⟨rfl, fun _ => rfl, fun _ => rfl, fun _ => rfl, fun _ => rfl⟩

/-- States that agree on what is specified differ in those three registers only. -/
theorem AgreeOnSpecified.exists_refill {s s' : State} (h : AgreeOnSpecified s s') : ∃ fb p n, s' = s.refill fb p n := ⟨_, _, _, h.1⟩

/-! ### Steps that do not touch these registers -/

/-- The three registers and those that say which of their bits are specified. -/
structure Buffers where
  fb        : Buf
  wn        : BitVec 5
  pbPayload : Payload
  cnt       : BitVec 5
  haveHi    : Bool
  hiNib     : BitVec 4

/-- The buffers of `s`. -/
def buffersOf (s : State) : Buffers :=
  { fb := s.fb, wn := s.wn, pbPayload := s.pbPayload, cnt := s.cnt, haveHi := s.haveHi, hiNib := s.hiNib }

/-- `s` with the buffers `b`. -/
def State.rebuffer (b : Buffers) (s : State) : State :=
  { s with fb := b.fb, wn := b.wn, pbPayload := b.pbPayload, cnt := b.cnt, haveHi := b.haveHi, hiNib := b.hiNib }

/-- `F` neither reads nor writes them: it commutes with every change of them. -/
def Bufferless (F : State → State) : Prop := ∀ b s, F (s.rebuffer b) = (F s).rebuffer b

theorem Bufferless.comp {F G : State → State} (hF : Bufferless F) (hG : Bufferless G) : Bufferless (F ∘ G) := by
  intro b s
  simp only [Function.comp_apply, hG b s, hF b (G s)]

/-- `F` commutes with putting the very buffers of `s` in their place. -/
theorem Bufferless.buffersOf_eq {F : State → State} (hF : Bufferless F) (s : State) : buffersOf (F s) = buffersOf s :=
  (congrArg buffersOf (hF (buffersOf s) s)).trans rfl

/-- Where `seq` may go without more of the buffers being read. -/
def ReadsNoMore (q q' : Seq) : Prop := q' = .ready ∨ q' = q ∨ q' = .lhStream ∧ (q = .lhReset ∨ q = .lhFlush)

section
variable {fb : Buf} {p : Payload} {n : BitVec 4} {s t : State}

/-- What was unspecified in `s` is so in `t`. -/
theorem AgreeOnSpecified.of_same_buffers (h : AgreeOnSpecified s (s.refill fb p n)) (hb : buffersOf t = buffersOf s)
    (hseq : ReadsNoMore s.seq t.seq) : AgreeOnSpecified t (t.refill fb p n) := by
  obtain ⟨-, hframe, hdigit, hstored, hpage⟩ := h
  obtain ⟨hfb, hwn, hpb, hcnt, hhi, hnib⟩ := Buffers.mk.inj hb
  simp only [State.refill] at hframe hdigit hstored hpage
  refine ⟨rfl, ?_, ?_, ?_, ?_⟩ <;> simp only [State.refill, hfb, hwn, hpb, hcnt, hhi, hnib]
  · rcases hseq with hq | hq | ⟨hq, -⟩ <;> simp only [hq, reduceCtorEq, false_or, false_imp_iff]
    exact hframe
  · exact hdigit
  · rcases hseq with hq | hq | ⟨hq, hl | hl⟩ <;> intro hr
    · simp [hq] at hr
    · exact hstored (hq ▸ hr)
    · exact hstored (.inl hl)
    · rw [hpage hl]
  · rcases hseq with hq | hq | ⟨hq, -⟩ <;> simp only [hq, reduceCtorEq, false_imp_iff]
    exact hpage

/-- Nothing is pending in READY and no token awaited: only a held digit is read. -/
theorem agree_ready (hq : s.seq = .ready) (hn : s.haveHi = true → n = s.hiNib) : AgreeOnSpecified s (s.refill fb p n) := by
  refine ⟨rfl, ?_, hn, ?_, ?_⟩ <;> simp [hq]

/-- A step that does not touch the buffers, and after which no more of them is read, keeps the agreement. -/
theorem Bufferless.agree {F : State → State} (hF : Bufferless F) (h : AgreeOnSpecified s (s.refill fb p n))
    (hseq : ReadsNoMore s.seq (F s).seq) : AgreeOnSpecified (F s) (F (s.refill fb p n)) := by
  have hsame := hF.buffersOf_eq s
  obtain ⟨-, hwn, -, hcnt, hhi, -⟩ := Buffers.mk.inj hsame
  have hrefill : F (s.refill fb p n) = (F s).refill fb p n := by
    refine (hF { buffersOf s with fb := fb, pbPayload := p, hiNib := n } s).trans ?_
    simp only [State.rebuffer, State.refill, buffersOf, hwn, hcnt, hhi]
  rw [hrefill]
  exact h.of_same_buffers hsame hseq

/-! ### The accept step -/

/-- What an accept starts has a frame of its own pending, and LOAD_HEX has stored no payload byte yet. -/
theorem startOf_agree (i : Instr) (hn : s.haveHi = true → n = s.hiNib) :
    AgreeOnSpecified (startOf i s) (startOf i (s.refill fb p n)) := by
  rcases wire_or_composite i with hw | ⟨arg, rfl⟩ | ⟨arg, rfl⟩
  · rw [startOf_wire i hw]
    exact ⟨rfl, fun _ => rfl, hn, by simp [startXact], by simp [startXact]⟩
  · exact ⟨rfl, fun _ => rfl, hn, by simp [startOf, startPoll], by simp [startOf, startPoll]⟩
  · have hlegal : legal (.resetCfgAddr 0) (s.refill fb p n) = legal (.resetCfgAddr 0) s := rfl
    rw [startOf, startLoad_eq, startLoad_eq, hlegal]
    exact ⟨rfl, fun _ => rfl, by simp, by simp, by simp⟩

theorem bufferless_refuse (op : BitVec 5) (cause : Err) : Bufferless (refuse op cause) := fun _ _ => rfl

theorem accept_agree (i : Instr) (h : AgreeOnSpecified s (s.refill fb p n)) :
    AgreeOnSpecified (accept i (startOf i) s) (accept i (startOf i) (s.refill fb p n)) := by
  obtain ⟨-, -, hn, -⟩ := h
  have hlegal : legal i (s.refill fb p n) = legal i s := legal_congr i s _ rfl rfl rfl rfl
  have hparams : (s.refill fb p n).params = s.params := rfl
  rw [accept, accept, acceptOrdered_eq, acceptOrdered_eq, hlegal, hparams]
  split
  · exact agree_ready rfl hn
  · split
    · exact agree_ready rfl hn
    · exact startOf_agree i (s := { s with seqViol := s.seqViol || !legal i s, curOp := opsel i, curArg := argOf i, stAcc := 0 }) hn

/-! ### The returns -/

theorem bufferless_effectsIfOk (i : Instr) (a : Answer) : Bufferless (effectsIfOk i a) := by
  intro b s
  have hshadow : shadowAfter i (s.rebuffer b) = shadowAfter i s := shadowAfter_of_same_shadow i rfl
  rw [effectsIfOk_shadowAfter, effectsIfOk_shadowAfter, hshadow]
  rfl

theorem bufferless_xactReturn (i : Instr) (a : Answer) : Bufferless (xactReturn i a) := by
  intro b s
  rw [xactReturn, bufferless_effectsIfOk]
  rfl

theorem bufferless_pollReturn (a : Answer) : Bufferless (pollReturn a) := by
  intro b s
  cases hbusy : busyBit a.bytes[0]
  · rw [pollReturn_ready hbusy, pollReturn_ready hbusy, readyPoll_eq, readyPoll_eq]
    rfl
  · cases hlim : limitReached (countPoll s)
    · rw [pollReturn_again hbusy hlim, pollReturn_again (s := s.rebuffer b) hbusy hlim]
      rfl
    · rw [pollReturn_timeout hbusy hlim, pollReturn_timeout (s := s.rebuffer b) hbusy hlim]
      rfl

theorem bufferless_resetReturn (a : Answer) : Bufferless (resetReturn a) := by
  intro b s
  rw [resetReturn, bufferless_effectsIfOk]
  rfl

/-- The page that was sent plays no part in its effects. -/
theorem bufferless_flushReturn (a : Answer) : Bufferless (flushReturn a) := by
  intro b s
  have hpage : flushReturn a s = { effectsIfOk (.programPage 0 (pb (s.rebuffer b))) a s with seq := .lhStream } := rfl
  rw [hpage, flushReturn, bufferless_effectsIfOk]
  rfl

/-- The common part of a return, with the request given (R136). -/
def returned (req : Request) (a : Answer) (rest : Supply Answer) (s : State) : State :=
  { s with
    txIn := rest
    trace := s.trace ++ [.tx req a.status (readBytes req.rn a.bytes)]
    xfail := s.xfail || a.status != 0
    stAcc := latched a s }

theorem recordReturn_eq_returned (a : Answer) (rest : Supply Answer) (s : State) :
    recordReturn a { s with txIn := rest } = returned (request s) a rest s := by
  have hreq : request { s with txIn := rest } = request s := rfl
  rw [recordReturn_eq, hreq]
  rfl

/-- The request that is pending is made of specified bits. -/
theorem request_refill (h : AgreeOnSpecified s (s.refill fb p n)) (hp : txPending s.seq = true) : request (s.refill fb p n) = request s := by
  obtain ⟨-, hframe, -, -, hpage⟩ := h
  cases hq : s.seq
  case lhFlush =>
    have hpb : p = s.pbPayload := hpage hq
    simp only [request, State.refill, hq, pb, hpb]
  case xact | poll | lhReset =>
    have hfb : fb.toList.take s.wn.toNat = s.fb.toList.take s.wn.toNat := hframe (by simp [hq])
    simp only [request, State.refill, hq, hfb]
  all_goals simp [hq, txPending] at hp

/-- A return lists specified bits only; its own part does not touch the buffers. -/
theorem onReturn_agree {k : Answer → State → State} (hk : ∀ a, Bufferless (k a)) (hp : txPending s.seq = true)
    (hseq : ∀ a t, t.seq = s.seq → ReadsNoMore s.seq (k a t).seq) (h : AgreeOnSpecified s (s.refill fb p n)) :
    AgreeOnSpecified (onReturn k s) (onReturn k (s.refill fb p n)) := by
  cases hpop : s.txIn.pop freeAnswer with
  | none => rwa [onReturn_none k s hpop, onReturn_none k (s.refill fb p n) hpop]
  | some answered =>
    obtain ⟨a, rest⟩ := answered
    have hreturn : Bufferless (k a ∘ returned (request s) a rest) := (hk a).comp fun _ _ => rfl
    rw [onReturn_some k s a rest hpop, onReturn_some k (s.refill fb p n) a rest hpop, recordReturn_eq_returned, recordReturn_eq_returned,
      request_refill h hp]
    exact hreturn.agree h (hseq a _ rfl)

/-! In XACT `fb` is read as the buffer of the command in flight too. Only PROGRAM_PAGE has one, and its return does not look at it. -/

theorem decode_of_not_programPage {op : BitVec 5} (hop : op ≠ 17) (arg : Word) (buf buf' : Buf) :
    decode { op := op, arg := arg, buf := buf } = decode { op := op, arg := arg, buf := buf' } := by
  have hnat : op.toNat ≠ 17 := fun h => hop (BitVec.eq_of_toNat_eq h)
  unfold decode
  generalize op.toNat = m at hnat
  split
  case h_18 => exact absurd rfl hnat
  all_goals rfl

theorem inFlight_refill (s : State) (fb : Buf) (p : Payload) (n : BitVec 4) :
    inFlight (s.refill fb p n) = inFlight s ∨
      inFlight s = .ok (.programPage s.curArg s.fb) ∧ inFlight (s.refill fb p n) = .ok (.programPage s.curArg fb) := by
  by_cases hop : s.curOp = 17
  · exact .inr ⟨by rw [inFlight, hop]; rfl, by rw [inFlight, State.refill, hop]; rfl⟩
  · exact .inl (decode_of_not_programPage hop s.curArg fb s.fb)

theorem xactReturn_programPage (arg : Word) (buf buf' : Buf) : xactReturn (.programPage arg buf) = xactReturn (.programPage arg buf') := rfl

theorem xact_agree (hq : s.seq = .xact) (h : AgreeOnSpecified s (s.refill fb p n)) :
    AgreeOnSpecified (nextState s) (nextState (s.refill fb p n)) := by
  have hreturn (i : Instr) : AgreeOnSpecified (onReturn (xactReturn i) s) (onReturn (xactReturn i) (s.refill fb p n)) :=
    onReturn_agree (bufferless_xactReturn i) (by rw [hq]; rfl) (fun _ _ _ => .inl rfl) h
  rcases inFlight_refill s fb p n with hsame | ⟨hpage, hpage'⟩
  · cases hd : inFlight s with
    | error e => rwa [nextState_xact_undefined s e hq hd, nextState_xact_undefined (s.refill fb p n) e hq (hsame.trans hd)]
    | ok i =>
      cases hw : i.isWire
      · rwa [nextState_xact_composite s i hq hd hw, nextState_xact_composite (s.refill fb p n) i hq (hsame.trans hd) hw]
      · rw [nextState_xact s i hq hd hw, nextState_xact (s.refill fb p n) i hq (hsame.trans hd) hw]
        exact hreturn i
  · rw [nextState_xact s _ hq hpage rfl, nextState_xact (s.refill fb p n) _ hq hpage' rfl, xactReturn_programPage s.curArg fb s.fb]
    exact hreturn _

/-! ### The tokens -/

/-- Storing a byte behind equal bytes makes one more of them equal. -/
theorem payload_take_store {p q : Payload} {k : Nat} (b : Byte) (h : p.toList.take k = q.toList.take k) :
    (p.setIfInBounds k b).toList.take (k + 1) = (q.setIfInBounds k b).toList.take (k + 1) := by
  by_cases hk : k < 16
  · rw [payload_take_set p b hk, payload_take_set q b hk, h]
  · have hall (r : Payload) : r.toList.take k = r.toList := List.take_of_length_le (by simpa using hk)
    rw [hall p, hall q] at h
    rw [Vector.toList_inj.mp h]

/-- The sixteenth byte makes the whole payload equal. -/
theorem payload_eq_of_last_stored {p q : Payload} (b : Byte) (h : p.toList.take 15 = q.toList.take 15) :
    p.setIfInBounds 15 b = q.setIfInBounds 15 b := by
  have hall (r : Payload) : r.toList.take (15 + 1) = r.toList := List.take_of_length_le (by simp)
  have hstored := payload_take_store b h
  rw [hall, hall] at hstored
  exact Vector.toList_inj.mp hstored

/-- The payload bytes below the new `cnt` are the stored ones, and none of them when it wraps. -/
theorem take_cnt_succ {p q : Payload} {cnt : BitVec 5} (b : Byte) (h : p.toList.take cnt.toNat = q.toList.take cnt.toNat) :
    (p.setIfInBounds cnt.toNat b).toList.take (cnt + 1).toNat = (q.setIfInBounds cnt.toNat b).toList.take (cnt + 1).toNat := by
  by_cases hwrap : cnt = 31
  · rw [hwrap]; rfl
  · have hsucc : (cnt + 1).toNat = cnt.toNat + 1 := by bv_omega
    rw [hsucc]
    exact payload_take_store b h

theorem endOfStream_agree {rest : Supply Token} (hq : s.seq = .lhStream) (hpop : s.hsIn.pop freeToken = some (.eos, rest)) :
    AgreeOnSpecified (nextState s) (nextState (s.refill fb p n)) := by
  rw [nextState_endOfStream hq hpop, nextState_endOfStream (s := s.refill fb p n) hq hpop]
  exact agree_ready rfl nofun

section
variable {c : Byte} {rest : Supply Token} (hq : s.seq = .lhStream) (hpop : s.hsIn.pop freeToken = some (.char c, rest))
include hq hpop

theorem separator_agree (hv : hexValue c = none) : AgreeOnSpecified (nextState s) (nextState (s.refill fb p n)) := by
  rw [nextState_separator hq hpop hv, nextState_separator (s := s.refill fb p n) hq hpop hv]
  refine ⟨rfl, ?_, nofun, fun _ => rfl, ?_⟩ <;> simp [digitDropped, hq]

theorem hexDigit_agree {v : BitVec 4} (hv : hexValue c = some v) (h : AgreeOnSpecified s (s.refill fb p n)) :
    AgreeOnSpecified (nextState s) (nextState (s.refill fb p n)) := by
  obtain ⟨-, -, hn, hstored, -⟩ := h
  have hstored : p.toList.take s.cnt.toNat = s.pbPayload.toList.take s.cnt.toNat := hstored (.inr hq)
  cases hhi : s.haveHi
  · rw [nextState_firstDigit hq hpop hv hhi, nextState_firstDigit (s := s.refill fb p n) hq hpop hv hhi]
    refine ⟨rfl, ?_, fun _ => rfl, fun _ => hstored, ?_⟩ <;> simp [hq]
  · have hn : n = s.hiNib := hn hhi
    by_cases hcnt : s.cnt = 15
    · rw [nextState_fillPage hq hpop hv hhi hcnt, nextState_fillPage (s := s.refill fb p n) hq hpop hv hhi hcnt]
      refine ⟨rfl, ?_, nofun, ?_, fun _ => ?_⟩
      · simp [pageFlushed]
      · simp [pageFlushed]
      · rw [hcnt] at hstored
        show p.setIfInBounds s.cnt.toNat (n ++ v) = s.pbPayload.setIfInBounds s.cnt.toNat (s.hiNib ++ v)
        rw [hn, hcnt]
        exact payload_eq_of_last_stored _ hstored
    · rw [nextState_storeByte hq hpop hv hhi hcnt, nextState_storeByte (s := s.refill fb p n) hq hpop hv hhi hcnt]
      refine ⟨rfl, ?_, nofun, fun _ => ?_, ?_⟩
      · simp [byteStored, hq]
      · show (p.setIfInBounds s.cnt.toNat (n ++ v)).toList.take _ = (s.pbPayload.setIfInBounds s.cnt.toNat (s.hiNib ++ v)).toList.take _
        rw [hn]
        exact take_cnt_succ _ hstored
      · simp [byteStored, hq]

end

theorem stream_agree (hq : s.seq = .lhStream) (h : AgreeOnSpecified s (s.refill fb p n)) :
    AgreeOnSpecified (nextState s) (nextState (s.refill fb p n)) := by
  cases hpop : s.hsIn.pop freeToken with
  | none => rwa [nextState_lhStream s hq, nextState_lhStream (s.refill fb p n) hq, onToken_none s hpop, onToken_none (s.refill fb p n) hpop]
  | some presented =>
    obtain ⟨c | -, rest⟩ := presented
    · cases hv : hexValue c with
      | none => exact separator_agree hq hpop hv
      | some v => exact hexDigit_agree hq hpop hv h
    · exact endOfStream_agree hq hpop

/-! ### The step -/

theorem ready_agree (hq : s.seq = .ready) (h : AgreeOnSpecified s (s.refill fb p n)) :
    AgreeOnSpecified (nextState s) (nextState (s.refill fb p n)) := by
  cases hc : s.cmdIn.pop freeCmd with
  | none => rwa [nextState_idle s hq hc, nextState_idle (s.refill fb p n) hq hc]
  | some taken =>
    obtain ⟨c, rest⟩ := taken
    have htaken : AgreeOnSpecified { s with cmdIn := rest } (State.refill fb p n { s with cmdIn := rest }) :=
      h.of_same_buffers rfl (.inr (.inl rfl))
    cases hd : decode c with
    | ok i =>
      rw [nextState_accept s c rest i hq hc hd, nextState_accept (s.refill fb p n) c rest i hq hc hd]
      exact accept_agree i htaken
    | error e =>
      rw [nextState_illegal s c rest e hq hc hd, nextState_illegal (s.refill fb p n) c rest e hq hc hd]
      exact (bufferless_refuse c.op .illegalOp).agree htaken (.inl rfl)

theorem nextState_agree (h : AgreeOnSpecified s (s.refill fb p n)) : AgreeOnSpecified (nextState s) (nextState (s.refill fb p n)) := by
  cases hq : s.seq
  case ready => exact ready_agree hq h
  case xact => exact xact_agree hq h
  case poll =>
    rw [nextState_poll s hq, nextState_poll (s.refill fb p n) hq]
    refine onReturn_agree bufferless_pollReturn (by rw [hq]; rfl) (fun a t ht => ?_) h
    exact (pollReturn_seq a t).imp_right fun hsame => .inl (hsame.trans ht)
  case lhReset =>
    rw [nextState_lhReset s hq, nextState_lhReset (s.refill fb p n) hq]
    exact onReturn_agree bufferless_resetReturn (by rw [hq]; rfl) (fun _ _ _ => .inr (.inr ⟨rfl, .inl hq⟩)) h
  case lhStream => exact stream_agree hq h
  case lhFlush =>
    rw [nextState_lhFlush s hq, nextState_lhFlush (s.refill fb p n) hq]
    exact onReturn_agree bufferless_flushReturn (by rw [hq]; rfl) (fun _ _ _ => .inr (.inr ⟨rfl, .inr hq⟩)) h

end

/-- Settles O58: a reset draws the same values in both states; every other step reads specified bits only. -/
theorem unspecifiedBitsReachNoChannel : Obligations.UnspecifiedBitsReachNoChannel := by
  intro s s' t h hstep
  obtain ⟨fb, p, n, rfl⟩ := h.exists_refill
  have hrst : rstNow (s.refill fb p n) = rstNow s := rfl
  rw [step_eq, Host.Outcome.next.injEq] at hstep
  subst hstep
  refine ⟨_, step_eq _, ?_⟩
  rw [hrst]
  cases rstNow s
  · exact nextState_agree (h.of_same_buffers rfl (.inr (.inl rfl)))
  · exact .refl (rst (useRstSample s))

end Sys2Proof.Machine

/-! PROOFS. The session of spec/70_reset_and_hazards.md R305. Where the block stands between two commands is a predicate of what is still to be
taken (`Stands`), what a run of steps has done is a relation that composes (`Advances`), and each command of the session is one lemma that
leads from the shadow state in which it is in order to the next one. -/

namespace Sys2Proof.Machine

/-! ### A run that is in order -/

/-- The block is in READY with no reset to come. The caller presents `cmds` next and then has `callerLeft`; the transport answers with `answers`,
each of status 0, and then has `deviceLeft`. -/
structure Stands (cmds : List Cmd) (callerLeft : Supply Cmd) (answers : List Answer) (deviceLeft : Supply Answer) (s : State) : Prop where
  ready    : s.seq = .ready
  noSample : s.rstIn = {}
  commands : s.cmdIn.Gives freeCmd cmds callerLeft
  replies  : s.txIn.Gives freeAnswer answers deviceLeft
  ok       : ∀ a ∈ answers, a.status = 0

/-- `k` steps lead from `s` to `t` and send `frames`; nothing is out of order, nothing fails, the parameters stay. -/
structure Advances (k : Nat) (frames : List (List Byte)) (s t : State) : Prop where
  steps   : stepsTo k s = some t
  seqViol : t.seqViol = s.seqViol
  xfail   : t.xfail = s.xfail
  params  : t.params = s.params
  frames  : framesSent t = framesSent s ++ frames

theorem Advances.refl (s : State) : Advances 0 [] s s := ⟨rfl, rfl, rfl, rfl, (List.append_nil _).symm⟩

theorem Advances.trans {j k : Nat} {frames more : List (List Byte)} {s t u : State} (h : Advances j frames s t) (h' : Advances k more t u) :
    Advances (j + k) (frames ++ more) s u where
  steps := stepsTo_trans h.steps h'.steps
  seqViol := h'.seqViol.trans h.seqViol
  xfail := h'.xfail.trans h.xfail
  params := h'.params.trans h.params
  frames := by rw [h'.frames, h.frames, List.append_assoc]

/-! ### One command -/

theorem step_command {i : Instr} {s : State} {rest : Supply Cmd} (hq : s.seq = .ready) (hr : s.rstIn = {})
    (hc : s.cmdIn.pop freeCmd = some (encode i, rest)) : step s = exec i { s with cmdIn := rest } := by
  rw [step_of_no_sample hr, nextState_accept s _ rest i hq hc (decode_encode i)]
  exact (exec_ready i { s with cmdIn := rest } hq).symm

/-- After its accept step a wire command is the operation in flight. -/
theorem step_accepted {i : Instr} {q : SimpleRun} {s : State} (hw : i.isWire = true) (hop : q.op = opsel i) (harg : q.arg = argOf i)
    (hframe : q.frame = frameBytes i) (hr : s.rstIn = {}) : step (accepted q s) = exec i (accepted q s) := by
  have hflight : inFlight (accepted q s) = .ok i := by
    rw [inFlight, accepted, hop, harg, hframe, decode_accepted]
  rw [step_of_no_sample (s := accepted q s) hr, nextState_xact _ i rfl hflight hw, exec_xact i _ rfl hw (inFlight_isCurrent i _ hflight)]

/-- The accept and the return of a command that is in order. -/
theorem RunsAs.stepsTo_completed {i : Instr} {rn : BitVec 5} {sh : Answer → Shadow} {busy : Answer → Bool} {s : State} {rest : Supply Cmd}
    {a : Answer} {left : Supply Answer} (hrun : RunsAs i ⟨opsel i, argOf i, frameBytes i, rn, false⟩ sh busy { s with cmdIn := rest })
    (hw : i.isWire = true) (hq : s.seq = .ready) (hr : s.rstIn = {}) (hc : s.cmdIn.pop freeCmd = some (encode i, rest))
    (ha : s.txIn.pop freeAnswer = some (a, left)) :
    stepsTo 2 s = some (completed ⟨opsel i, argOf i, frameBytes i, rn, false⟩ (sh a) (busy a) a left { s with cmdIn := rest }) := by
  obtain ⟨-, hgo⟩ := hrun hq
  obtain ⟨haccept, hreturn⟩ := hgo (.inl rfl)
  have hfirst := stepsTo_of_step ((step_command hq hr hc).trans haccept) 1
  have hsecond := step_accepted (q := ⟨opsel i, argOf i, frameBytes i, rn, false⟩) (s := { s with cmdIn := rest }) hw rfl rfl rfl hr
  exact hfirst.trans (stepsTo_of_step (hsecond.trans (hreturn a left ha)) 0)

section
variable {cmds : List Cmd} {callerLeft : Supply Cmd} {answers : List Answer} {deviceLeft : Supply Answer} {s : State}

/-- A command that is in order runs in two steps, sends its frame, moves `life` by its row and has its flag effects. -/
theorem Stands.inOrder {i : Instr} {a : Answer} {target : Life} {flags : Shadow}
    (h : Stands (encode i :: cmds) callerLeft (a :: answers) deviceLeft s) (hsend : Sendable i s)
    (hflags : ∀ b t, shadowOf t = shadowOf s → shadowOf (flagEffects i b t) = flags)
    (herase : s.erasePend = false) (hrow : lifeNext (lifeClass i) s.life = some target) (hptr : ptrOk i s = true) :
    ∃ t, Stands cmds callerLeft answers deviceLeft t ∧ Advances 2 [frameBytes i] s t ∧ shadowOf t = { flags with life := target } := by
  obtain ⟨rest, hc, hcmds⟩ := h.commands
  obtain ⟨left, ha, hanswers⟩ := h.replies
  have hstatus : a.status = 0 := h.ok a List.mem_cons_self
  obtain ⟨hw, hpoll, hrange⟩ := hsend
  have hinOrder : rowOutOfOrder i true s = false := by simp [rowOutOfOrder, herase, hptr]
  have hout : rowOutOfOrder i true { s with cmdIn := rest } = false := hinOrder
  have hrun := Sendable.runsAs (s := { s with cmdIn := rest }) (inRow := true) ⟨hw, hpoll, hrange⟩ hrow flags (fun b => hflags b _ rfl)
  rw [hout] at hrun
  have hsteps := hrun.stepsTo_completed hw h.ready h.noSample hc ha
  refine ⟨_, ?_, ⟨hsteps, Bool.or_false _, ?_, rfl, ?_⟩, ?_⟩
  · exact ⟨rfl, h.noSample, hcmds, hanswers, fun b hb => h.ok b (List.mem_cons_of_mem a hb)⟩
  · simp [completed, hstatus]
  · simp [completed, framesSent, Event.written]
  · simp [completed, hstatus, shadowOf]

/-- WAIT_BUSY runs through its busy polls to the ready one, which clears `erase_pend`; each poll sends the frame of IS_BUSY. -/
theorem Stands.waitBusy {arg : Word} {busy : List Answer} {rdy : Answer}
    (h : Stands (encode (.waitBusy arg) :: cmds) callerLeft (busy ++ rdy :: answers) deviceLeft s)
    (hbusy : ∀ a ∈ busy, busyBit a.bytes[0] = true) (hrdy : busyBit rdy.bytes[0] = false)
    (hlim : s.params.pollLimit = 0 ∨ busy.length < s.params.pollLimit.toNat) :
    ∃ t, Stands cmds callerLeft answers deviceLeft t ∧
      Advances (busy.length + 2) (List.replicate (busy.length + 1) [0xF0, 0, 0, 0]) s t ∧
      shadowOf t = { shadowOf s with erasePend := false } := by
  obtain ⟨rest, hc, hcmds⟩ := h.commands
  have hwait : TakesWaitBusy s (encode (.waitBusy arg)) rest := ⟨h.ready, h.noSample, hc, rfl⟩
  rw [List.append_cons] at h
  obtain ⟨left, hpolls, hanswers⟩ := (Supply.gives_append freeAnswer _ _ _ _).mp h.replies
  have hok : ∀ a ∈ busy ++ [rdy], a.status = 0 := fun a ha => h.ok a (List.mem_append_left _ ha)
  have hready : rdy.status = 0 := hok rdy (by simp)
  have hall : busy.any (·.status != 0) = false := by
    simpa using fun a ha => hok a (List.mem_append_left _ ha)
  have hsteps := hwait.stepsTo_lastPoll hpolls hbusy hlim
  have hsent := framesSent_waitTaken_lastPoll (encode (.waitBusy arg)) rest s busy rdy left
  rw [pollReturn_ready hrdy, readyPoll_eq] at hsteps hsent
  refine ⟨_, ?_, ⟨hsteps, rfl, ?_, rfl, hsent⟩, ?_⟩
  · exact ⟨rfl, h.noSample, hcmds, hanswers, fun a ha => h.ok a (List.mem_append_right _ ha)⟩
  · show (s.xfail || busy.any (·.status != 0) || rdy.status != 0) = s.xfail
    rw [hall, hready, Bool.or_false, bne_self_eq_false, Bool.or_false]
  · simp [afterPoll, afterBusyPolls, hready, waitTaken, waitAccepted, shadowOf]

/-- Pages are in order where class P is, with the pointer positioned: the first one leads to PROGRAMMING and the others stay there. -/
theorem Stands.pages {pages : List Buf} (h : Stands (pages.map (fun b => encode (.programPage 0 b)) ++ cmds) callerLeft answers deviceLeft s)
    (hlen : pages.length ≤ answers.length) (hrow : lifeNext .page s.life = some .programming) (hcfg : s.cfgPos = true)
    (herase : s.erasePend = false) :
    ∃ t, Stands cmds callerLeft (answers.drop pages.length) deviceLeft t ∧ Advances (2 * pages.length) (pages.map Vector.toList) s t ∧
      shadowOf t = { shadowOf s with life := if pages = [] then s.life else .programming } := by
  induction pages generalizing s answers with
  | nil => exact ⟨s, h, .refl s, rfl⟩
  | cons b pages ih =>
    obtain - | ⟨a, answers⟩ := answers
    · simp at hlen
    obtain ⟨t, ht, hfirst, hsh⟩ := h.inOrder (flags := shadowOf s) ⟨rfl, rfl, rfl⟩ (fun _ _ hs => hs) herase hrow hcfg
    obtain ⟨hl, hc, -, he⟩ := Shadow.mk.inj hsh
    obtain ⟨u, hu, hothers, hsh'⟩ := ih ht (Nat.le_of_succ_le_succ hlen) (by rw [hl]; rfl) (hc.trans hcfg) (he.trans herase)
    refine ⟨u, hu, ?_, ?_⟩
    · have hsteps : 2 * (b :: pages).length = 2 + 2 * pages.length := by rw [List.length_cons]; omega
      rw [hsteps]
      exact hfirst.trans hothers
    · simp [hsh', hsh, hl]

/-! The other commands of the session, each in order by its row. -/

theorem Stands.resetCfgAddr {a : Answer} {target : Life} (h : Stands (encode (.resetCfgAddr 0) :: cmds) callerLeft (a :: answers) deviceLeft s)
    (herase : s.erasePend = false) (hrow : lifeNext .addr s.life = some target) :
    ∃ t, Stands cmds callerLeft answers deviceLeft t ∧ Advances 2 [[0x46, 0, 0, 0]] s t ∧
      shadowOf t = { shadowOf s with life := target, cfgPos := true } :=
  h.inOrder (flags := { shadowOf s with cfgPos := true }) ⟨rfl, rfl, rfl⟩
    (fun _ _ hs => congrArg (fun sh : Shadow => { sh with cfgPos := true }) hs) herase hrow rfl

theorem Stands.erase {flags : Word} {a : Answer} (h : Stands (encode (.erase flags) :: cmds) callerLeft (a :: answers) deviceLeft s)
    (hflash : flags.getLsbD 18 = true) (herase : s.erasePend = false) (hlife : s.life = .addrReset1) :
    ∃ t, Stands cmds callerLeft answers deviceLeft t ∧ Advances 2 [[0x0E, eraseOperand flags, 0, 0]] s t ∧
      shadowOf t = { shadowOf s with life := .erasing, erasePend := true } :=
  h.inOrder (flags := { shadowOf s with erasePend := true }) (sendable_erase flags s)
    (fun _ _ hs => congrArg (fun sh : Shadow => { sh with erasePend := true }) hs) herase
    (by rw [lifeClass, hflash, if_pos rfl, hlife]; rfl) rfl

theorem Stands.programDone {a : Answer} (h : Stands (encode (.programDone 0) :: cmds) callerLeft (a :: answers) deviceLeft s)
    (herase : s.erasePend = false) (hlife : s.life = .programming) :
    ∃ t, Stands cmds callerLeft answers deviceLeft t ∧ Advances 2 [[0x5E, 0, 0, 0]] s t ∧
      shadowOf t = { shadowOf s with life := .finalizing } :=
  h.inOrder (flags := shadowOf s) ⟨rfl, rfl, rfl⟩ (fun _ _ hs => hs) herase (by rw [hlife]; rfl) rfl

theorem Stands.refresh {a : Answer} (h : Stands (encode (.refresh 0) :: cmds) callerLeft (a :: answers) deviceLeft s)
    (herase : s.erasePend = false) (hlife : s.life = .finalizing) :
    ∃ t, Stands cmds callerLeft answers deviceLeft t ∧ Advances 2 [[0x79, 0, 0]] s t ∧
      shadowOf t = { shadowOf s with life := .activated, cfgPos := false, ufmPos := false } :=
  h.inOrder (flags := { shadowOf s with cfgPos := false, ufmPos := false }) ⟨rfl, rfl, rfl⟩
    (fun _ _ hs => congrArg (fun sh : Shadow => { sh with cfgPos := false, ufmPos := false }) hs) herase (by rw [hlife]; rfl) rfl

end

/-! ### The session (R305) -/

/-- Settles O52: each command leaves the shadow state in which the next one is in order (R133), for any number of pages and busy polls. -/
theorem sessionSequenceActivates : Obligations.SessionSequenceActivates := by
  intro s flags pages before busy after rdy cmds more hq hr hlife herase hflash hpages hcmds htx hbefore hafter hok hbusy hrdy hlim
  obtain ⟨a₁, a₂, rfl⟩ := List.length_eq_two.mp hbefore
  obtain ⟨a₃, later, rfl⟩ := List.exists_cons_of_ne_nil (List.ne_nil_of_length_pos (by omega : 0 < after.length))
  rw [List.length_cons] at hafter
  have h : Stands _ cmds (a₁ :: a₂ :: (busy ++ rdy :: a₃ :: later)) more s := ⟨hq, hr, hcmds, htx, hok⟩
  obtain ⟨s₁, h₁, hreset, hsh₁⟩ := h.resetCfgAddr (target := .addrReset1) herase (by rcases hlife with hl | hl <;> rw [hl] <;> rfl)
  obtain ⟨hlife₁, -, -, herase₁⟩ := Shadow.mk.inj hsh₁
  obtain ⟨s₂, h₂, herased, hsh₂⟩ := h₁.erase hflash (herase₁.trans herase) hlife₁
  have hparams : s₂.params = s.params := (hreset.trans herased).params
  obtain ⟨s₃, h₃, hwaited, hsh₃⟩ := h₂.waitBusy hbusy hrdy (hparams ▸ hlim)
  rw [hsh₂, hsh₁] at hsh₃
  obtain ⟨hlife₃, -, -, herase₃⟩ := Shadow.mk.inj hsh₃
  obtain ⟨s₄, h₄, hreset', hsh₄⟩ := h₃.resetCfgAddr (target := .addrReset2) herase₃ (by rw [hlife₃]; rfl)
  obtain ⟨hlife₄, hcfg₄, -, herase₄⟩ := Shadow.mk.inj hsh₄
  obtain ⟨s₅, h₅, hprogrammed, hsh₅⟩ := h₄.pages (by omega) (by rw [hlife₄]; rfl) hcfg₄ (herase₄.trans herase₃)
  rw [if_neg hpages] at hsh₅
  obtain ⟨hlife₅, -, -, herase₅⟩ := Shadow.mk.inj hsh₅
  have hleft : (later.drop pages.length).length = 2 := by rw [List.length_drop]; omega
  obtain ⟨a₄, a₅, htwo⟩ := List.length_eq_two.mp hleft
  rw [htwo] at h₅
  obtain ⟨s₆, h₆, hdone, hsh₆⟩ := h₅.programDone (herase₅.trans (herase₄.trans herase₃)) hlife₅
  obtain ⟨hlife₆, -, -, herase₆⟩ := Shadow.mk.inj hsh₆
  obtain ⟨t, ht, hrefreshed, hsh⟩ := h₆.refresh (herase₆.trans (herase₅.trans (herase₄.trans herase₃))) hlife₆
  rw [hsh₆, hsh₅, hsh₄, hsh₃] at hsh
  obtain ⟨hlife, hcfg, hufm, herase⟩ := Shadow.mk.inj hsh
  have hrun := hreset.trans (herased.trans (hwaited.trans (hreset'.trans (hprogrammed.trans (hdone.trans hrefreshed)))))
  have hsteps : 2 + (2 + (busy.length + 2 + (2 + (2 * pages.length + (2 + 2))))) = 2 * (pages.length + 5) + (busy.length + 2) := by omega
  refine ⟨t, hsteps ▸ hrun.steps, ht.ready, hlife, hrun.seqViol, hrun.xfail, hcfg, hufm, herase, ht.commands, ht.replies, ?_⟩
  rw [hrun.frames]
  simp

end Sys2Proof.Machine
